-- ==== Sys2Proof/Word.lean ====
section
/-! DEFINITION. The unsigned words of the engine (00_scope R12): bytes, the 16-bit CRC word and
the 32-bit command argument. -/

namespace Sys2Proof

/-- `u8` (00_scope R12). -/
abbrev Byte := BitVec 8

/-- `u16`: a CRC16 value (40_crc R106). -/
abbrev Half := BitVec 16

/-- `u32`: a command argument or an address operand (20_memory R52). -/
abbrev Arg := BitVec 32

/-- The 6-bit command index of a frame (30_encoding R71). -/
abbrev CmdIndex := BitVec 6

end Sys2Proof
end

