-- ==== Sys2Proof/Config.lean ====
section
/-! DEFINITION. The protocol constants of 00_scope R8, the configuration record `Cfg` of
00_scope R9 to R11 with its defaults, the bus event of 20_memory R58, and the one free value of
the model: the byte an unconstrained card sends (20_memory R59). -/

namespace Sys2Proof

/-! Constants fixed by the source, not changeable by `Cfg` (00_scope R8). -/

/-- `IDLE_BYTE`: the bus-idle sentinel. -/
abbrev idleByte : Byte := 0xFF#8
/-- `R1_READY`: the response "ready". -/
abbrev r1Ready : Byte := 0x00#8
/-- `R1_IDLE`: the response "idle". -/
abbrev r1Idle : Byte := 0x01#8
/-- `TOKEN_START`. -/
abbrev tokenStart : Byte := 0xFE#8
/-- `TOKEN_MULTI_START`. -/
abbrev tokenMultiStart : Byte := 0xFC#8
/-- `TOKEN_MULTI_STOP`; never sent by the engine on its own (44_transfer R219). -/
abbrev tokenMultiStop : Byte := 0xFD#8
/-- `BLOCK_LEN`. -/
abbrev blockLen : Nat := 512
/-- `RESP_POLL_MAX`. -/
abbrev respPollMax : Nat := 16
/-- `IDX_RESET`. -/
abbrev idxReset : CmdIndex := 0#6

/-- The configuration record (00_scope R9, R10, R11), fixed for the life of the engine
(20_memory R64, 70 R267). The command indices are 6-bit by type, so a configuration with an index
above 63 cannot be written (30_encoding R71, 92 D33). -/
structure Cfg where
  /-- `RESET_ATTEMPTS` (R9). -/
  resetAttempts : Nat := 250
  /-- `INIT_ATTEMPTS` (R9). -/
  initAttempts : Nat := 250
  /-- `BLKLEN_ATTEMPTS` (R9). -/
  blkLenAttempts : Nat := 250
  /-- `STAGE_DELAY_MS` (R9). -/
  stageDelayMs : Nat := 1
  /-- `TOKEN_ATTEMPTS` (R9). -/
  tokenAttempts : Nat := 250
  /-- `TOKEN_DELAY_MS` (R9). -/
  tokenDelayMs : Nat := 1
  /-- `BUSY_ATTEMPTS` (R9). -/
  busyAttempts : Nat := 250
  /-- `BUSY_DELAY_MS` (R9). -/
  busyDelayMs : Nat := 1
  /-- `POWERUP_IDLE_CLOCKS` (R10). -/
  powerupIdleClocks : Nat := 10
  /-- `PRE_SELECT_IDLE_CLOCKS` (R10). -/
  preSelectIdleClocks : Nat := 1
  /-- `POST_IDLE_CLOCKS` (R10). -/
  postIdleClocks : Nat := 1
  /-- `IDX_MMC_INIT` (R11). -/
  idxMmcInit : CmdIndex := 1
  /-- `IDX_READ_CSD` (R11). -/
  idxReadCsd : CmdIndex := 9
  /-- `IDX_READ_CID` (R11). -/
  idxReadCid : CmdIndex := 10
  /-- `IDX_END_READ` (R11). -/
  idxEndRead : CmdIndex := 12
  /-- `IDX_END_WRITE`, OPEN (R11, 92 D22). -/
  idxEndWrite : CmdIndex := 12
  /-- `IDX_SET_BLOCKLEN` (R11). -/
  idxSetBlocklen : CmdIndex := 16
  /-- `IDX_READ_SINGLE` (R11). -/
  idxReadSingle : CmdIndex := 17
  /-- `IDX_READ_MULTI` (R11). -/
  idxReadMulti : CmdIndex := 18
  /-- `IDX_WRITE_SINGLE` (R11). -/
  idxWriteSingle : CmdIndex := 24
  /-- `IDX_WRITE_MULTI` (R11). -/
  idxWriteMulti : CmdIndex := 25
  /-- `IDX_SDC_INIT` (R11). -/
  idxSdcInit : CmdIndex := 41
  /-- `IDX_APP_PREFIX` (R11). -/
  idxAppPrefix : CmdIndex := 55
  /-- `ARG_SDC_INIT`, OPEN (R11, 92 D11). -/
  argSdcInit : Arg := 0x40000000
  /-- `R1_ILLEGAL_BIT` (R11): a bit number of a byte. -/
  r1IllegalBit : Fin 8 := 2
  deriving DecidableEq, Repr

/-- Every field at its default (00_scope R9 to R11). -/
def Cfg.default : Cfg := {}

/-- One event of the bus trace (20_memory R58). -/
inductive BusEvent where
  /-- `X(o, i)`: the byte `sent` went to the card and the byte `got` came back. -/
  | xchg (sent got : Byte)
  /-- `SEL`: chip-select asserted. -/
  | sel
  /-- `DESEL`: chip-select released. -/
  | desel
  /-- `DLY(ms)`. -/
  | dly (ms : Nat)
  deriving DecidableEq, Repr

/-- FREE VALUE (log 2). The byte that the card number `card` sends in an exchange, given the whole
trace before it and the byte the engine sends in it: chosen by the card, under no law
(20_memory R59, 93 U12). It has no body, so nothing can be proved of its value. -/
opaque Config.cardOracle (card : Nat) (trace : List BusEvent) (sent : Byte) : Byte

end Sys2Proof
end

