-- ==== Sys2Proof/Machine/Crc.lean ====
section
/-! DEFINITION. The CRC Engine (40_crc): CRC7 and CRC16-CCITT as pure functions on fixed-width
registers (R111). -/

namespace Sys2Proof.Machine

/-- One bit step of CRC7 (40_crc R101): the feedback is the register's top bit against the incoming
message bit. -/
def crc7Bit (r : BitVec 7) (d : Bool) : BitVec 7 :=
  if r.getLsbD 6 ^^ d then (r <<< 1) ^^^ 0x09#7 else r <<< 1

/-- One byte step of CRC7, most significant bit first (40_crc R102). -/
def crc7Step (r : BitVec 7) (b : Byte) : BitVec 7 :=
  [7, 6, 5, 4, 3, 2, 1, 0].foldl (fun r k => crc7Bit r (b.getLsbD k)) r

/-- The raw CRC7 register after a byte sequence (40_crc R103 before the finishing step; `raw7` of
R112). -/
def crc7Raw (r : BitVec 7) (bytes : List Byte) : BitVec 7 :=
  bytes.foldl crc7Step r

/-- The finishing step (40_crc R104): a plain shift, and the stop bit. -/
def crc7Finish (r : BitVec 7) : Byte :=
  (r.setWidth 8 <<< 1) ||| 0x01#8

/-- `crc7(seed, bytes)` (40_crc R103); bit 7 of the seed is ignored (R100). -/
def crc7 (seed : Byte) (bytes : List Byte) : Byte :=
  crc7Finish (crc7Raw (seed.extractLsb' 0 7) bytes)

/-- One shift step of CRC16 (40_crc R107). -/
def crc16Shift (c : Half) : Half :=
  if c.getLsbD 15 then (c <<< 1) ^^^ 0x1021#16 else c <<< 1

/-- One byte step of CRC16 (40_crc R107): the byte enters bits 15:8, then eight shift steps. -/
def crc16Step (c : Half) (b : Byte) : Half :=
  (List.range 8).foldl (fun c _ => crc16Shift c) (c ^^^ (b.setWidth 16 <<< 8))

/-- `crc16(seed, bytes)` (40_crc R108). -/
def crc16 (seed : Half) (bytes : List Byte) : Half :=
  bytes.foldl crc16Step seed

/-- The 8-bit realisation of one CRC7 bit step (40_crc R116), kept beside the normative one so that
their agreement can be stated. -/
def crc7Bit8 (v : Byte) (d : Bool) : Byte :=
  if (v <<< 1).getLsbD 7 ^^ d then (v <<< 1) ^^^ 0x09#8 else v <<< 1

/-- The byte step of the 8-bit realisation (40_crc R116, R102). -/
def crc7Step8 (v : Byte) (b : Byte) : Byte :=
  [7, 6, 5, 4, 3, 2, 1, 0].foldl (fun v k => crc7Bit8 v (b.getLsbD k)) v

/-- CRC7 by the 8-bit realisation, with its own finishing step (40_crc R116). -/
def crc7By8 (seed : Byte) (bytes : List Byte) : Byte :=
  ((bytes.foldl crc7Step8 seed) <<< 1) ||| 0x01#8

end Sys2Proof.Machine
end

