-- ==== Sys2Proof/Syntax.lean ====
section
/-! DEFINITION. The instructions: one constructor for each row of spec/opcode_table.json, which are
the sixteen host operation codes (30_encoding R84, R87), the generic command frame and the thirteen
command frames (30_encoding R70, R81), and the tokens with the idle byte (30_encoding R75, R80). -/

namespace Sys2Proof

/-- The direction of a transfer (10_state R32, 30_encoding R83). -/
inductive Dir where
  | read
  | write
  deriving DecidableEq, Repr

/-- The granularity of a transfer (10_state R32, 30_encoding R83). -/
inductive Gran where
  | single
  | multi
  deriving DecidableEq, Repr

/-- An instruction, with the operands of 30_encoding R85. -/
inductive Instr where
  /-- `IS_ACTIVE`, operation code 0x0. -/
  | isActive
  /-- `INITIALIZE`, operation code 0x1. -/
  | initializeCard
  /-- `CAPACITY_BYTES`, operation code 0x2. -/
  | capacityBytes
  /-- `GET_CID`, operation code 0x3. -/
  | getCid
  /-- `GET_CSD`, operation code 0x4. -/
  | getCsd
  /-- `READ_BLOCK`, operation code 0x5. -/
  | readBlock (addr : Arg)
  /-- `WRITE_BLOCK`, operation code 0x6; `buf` holds 512 bytes (`Instr.wf`). -/
  | writeBlock (addr : Arg) (buf : List Byte)
  /-- `BEGIN_TRANSFER`, operation code 0x7; the mode operand is the pair `dir`, `gran` (R83). -/
  | beginTransfer (dir : Dir) (gran : Gran) (addr : Arg)
  /-- `START_SUB_BLOCK`, operation code 0x8. -/
  | startSubBlock
  /-- `STOP_SUB_BLOCK`, operation code 0x9. -/
  | stopSubBlock (crcOut : Half)
  /-- `END_TRANSFER`, operation code 0xA. -/
  | endTransfer (crcOut : Half)
  /-- `XFER_BYTE`, operation code 0xB. -/
  | xferByte (out : Byte)
  /-- `CRC7`, operation code 0xC. -/
  | crc7 (seed : Byte) (bytes : List Byte)
  /-- `CRC16`, operation code 0xD. -/
  | crc16 (seed : Half) (bytes : List Byte)
  /-- The reserved operation code 0xE. -/
  | reservedE
  /-- The reserved operation code 0xF. -/
  | reservedF
  /-- `FRAME`: the generic command frame; byte 5 is computed, never an operand (R72). -/
  | frame (index : CmdIndex) (arg : Arg)
  /-- `CMD_RESET` (41 R126). -/
  | cmdReset
  /-- `CMD_MMC_INIT` (41 R127). -/
  | cmdMmcInit
  /-- `CMD_APP_PREFIX` (41 R128). -/
  | cmdAppPrefix
  /-- `CMD_SDC_INIT` (41 R129). -/
  | cmdSdcInit
  /-- `CMD_SET_BLOCKLEN` (41 R130). -/
  | cmdSetBlocklen
  /-- `CMD_READ_CID` (41 R131). -/
  | cmdReadCid
  /-- `CMD_READ_CSD` (41 R132). -/
  | cmdReadCsd
  /-- `CMD_END_READ` (41 R133). -/
  | cmdEndRead
  /-- `CMD_END_WRITE` (41 R134). -/
  | cmdEndWrite
  /-- `CMD_READ_SINGLE` (41 R135). -/
  | cmdReadSingle (addr : Arg)
  /-- `CMD_READ_MULTI` (41 R136). -/
  | cmdReadMulti (addr : Arg)
  /-- `CMD_WRITE_SINGLE` (41 R137). -/
  | cmdWriteSingle (addr : Arg)
  /-- `CMD_WRITE_MULTI` (41 R138). -/
  | cmdWriteMulti (addr : Arg)
  /-- `TOKEN_START_SINGLE`, 0xFE (30 R75). -/
  | tokenStartSingle
  /-- `TOKEN_START_MULTI_WRITE`, 0xFC (30 R75). -/
  | tokenStartMultiWrite
  /-- `TOKEN_STOP_MULTI_WRITE`, 0xFD (30 R75, 44 R219). -/
  | tokenStopMultiWrite
  /-- `BYTE_IDLE`, 0xFF (30 R80). -/
  | byteIdle
  deriving DecidableEq, Repr

/-- The rows of format HOSTOP: what the host port takes (30_encoding R84, R87, R90). The other rows
are the engine's own words on the bus. -/
def Instr.isHostOp : Instr → Bool
  | .isActive | .initializeCard | .capacityBytes | .getCid | .getCsd => true
  | .readBlock _ | .writeBlock _ _ | .beginTransfer _ _ _ => true
  | .startSubBlock | .stopSubBlock _ | .endTransfer _ | .xferByte _ => true
  | .crc7 _ _ | .crc16 _ _ | .reservedE | .reservedF => true
  | .frame _ _ | .cmdReset | .cmdMmcInit | .cmdAppPrefix | .cmdSdcInit | .cmdSetBlocklen => false
  | .cmdReadCid | .cmdReadCsd | .cmdEndRead | .cmdEndWrite => false
  | .cmdReadSingle _ | .cmdReadMulti _ | .cmdWriteSingle _ | .cmdWriteMulti _ => false
  | .tokenStartSingle | .tokenStartMultiWrite | .tokenStopMultiWrite | .byteIdle => false

end Sys2Proof
end

