-- ==== Sys2Proof/WellFormed.lean ====
section
/-! DEFINITION. Well-formed instructions. Operand widths are in the types of `Instr`; the one check
left is that the buffer of `WRITE_BLOCK` holds 512 bytes (30_encoding R85). -/

namespace Sys2Proof

/-- The operands are as 30_encoding R85 gives them. -/
def Instr.wf : Instr → Bool
  | .writeBlock _ buf => buf.length == blockLen
  | .isActive | .initializeCard | .capacityBytes | .getCid | .getCsd => true
  | .readBlock _ | .beginTransfer _ _ _ => true
  | .startSubBlock | .stopSubBlock _ | .endTransfer _ | .xferByte _ => true
  | .crc7 _ _ | .crc16 _ _ | .reservedE | .reservedF => true
  | .frame _ _ | .cmdReset | .cmdMmcInit | .cmdAppPrefix | .cmdSdcInit | .cmdSetBlocklen => true
  | .cmdReadCid | .cmdReadCsd | .cmdEndRead | .cmdEndWrite => true
  | .cmdReadSingle _ | .cmdReadMulti _ | .cmdWriteSingle _ | .cmdWriteMulti _ => true
  | .tokenStartSingle | .tokenStartMultiWrite | .tokenStopMultiWrite | .byteIdle => true

end Sys2Proof
end

