-- ==== Sys2Proof/Machine/Operands.lean ====
section
/-! DEFINITION. Operand forms: byte order of the argument and of the CRC16 trailer, the mode operand
of `BEGIN_TRANSFER`, the command frame, the frame that each command row stands for, which frames the
engine can emit, and which words need an asserted chip-select. -/

namespace Sys2Proof.Machine

/-- `w[15:8]`, the trailer byte that comes first on the bus (20_memory R55). -/
def hiByte (w : Half) : Byte := w.extractLsb' 8 8

/-- `w[7:0]`, the trailer byte that comes second (20_memory R55). -/
def loByte (w : Half) : Byte := w.extractLsb' 0 8

/-- `(zext_16(hi) << 8) or zext_16(lo)` (44_transfer R203, R206). -/
def joinTrailer (hi lo : Byte) : Half :=
  (hi.setWidth 16 <<< 8) ||| lo.setWidth 16

/-- The four bytes of a command argument, most significant first (20_memory R54). -/
def argBytes (a : Arg) : List Byte :=
  [a.extractLsb' 24 8, a.extractLsb' 16 8, a.extractLsb' 8 8, a.extractLsb' 0 8]

/-- Bytes 0 to 4 of a command frame (41 R120, 30 R70, R71). -/
def frameHead (idx : CmdIndex) (arg : Arg) : List Byte :=
  (0x40#8 ||| idx.setWidth 8) :: argBytes arg

/-- `Frame(idx, arg)`: the six bytes in bus order (41 R120); byte 5 is the CRC7 of the five before
it, seed 0 (30 R72). -/
def frame (idx : CmdIndex) (arg : Arg) : List Byte :=
  frameHead idx arg ++ [crc7 0 (frameHead idx arg)]

/-- `mode[0]`: 0 is READ, 1 is WRITE (30 R83). -/
def modeDir (mode : BitVec 2) : Dir :=
  if mode.getLsbD 0 then .write else .read

/-- `mode[1]`: 0 is SINGLE, 1 is MULTI (30 R83). -/
def modeGran (mode : BitVec 2) : Gran :=
  if mode.getLsbD 1 then .multi else .single

/-- The two mode bits of a direction and a granularity (30 R83). -/
def modeBits : Dir → Gran → BitVec 2
  | .read, .single => 0
  | .write, .single => 1
  | .read, .multi => 2
  | .write, .multi => 3

/-- `BeginIndex(dir, gran)` (44_transfer R197). -/
def beginIndex (cfg : Cfg) : Dir → Gran → CmdIndex
  | .read, .single => cfg.idxReadSingle
  | .write, .single => cfg.idxWriteSingle
  | .read, .multi => cfg.idxReadMulti
  | .write, .multi => cfg.idxWriteMulti

/-- The index and argument of the frame a row stands for (30 R81, 41 R126 to R138); none for the
rows that are no command frame. -/
def frameOf (cfg : Cfg) : Instr → Option (CmdIndex × Arg)
  | .frame idx arg => some (idx, arg)
  | .cmdReset => some (idxReset, 0)
  | .cmdMmcInit => some (cfg.idxMmcInit, 0)
  | .cmdAppPrefix => some (cfg.idxAppPrefix, 0)
  | .cmdSdcInit => some (cfg.idxSdcInit, cfg.argSdcInit)
  | .cmdSetBlocklen => some (cfg.idxSetBlocklen, 512)
  | .cmdReadCid => some (cfg.idxReadCid, 0)
  | .cmdReadCsd => some (cfg.idxReadCsd, 0)
  | .cmdEndRead => some (cfg.idxEndRead, 0)
  | .cmdEndWrite => some (cfg.idxEndWrite, 0)
  | .cmdReadSingle addr => some (cfg.idxReadSingle, addr)
  | .cmdReadMulti addr => some (cfg.idxReadMulti, addr)
  | .cmdWriteSingle addr => some (cfg.idxWriteSingle, addr)
  | .cmdWriteMulti addr => some (cfg.idxWriteMulti, addr)
  | .isActive | .initializeCard | .capacityBytes | .getCid | .getCsd => none
  | .readBlock _ | .writeBlock _ _ | .beginTransfer _ _ _ => none
  | .startSubBlock | .stopSubBlock _ | .endTransfer _ | .xferByte _ => none
  | .crc7 _ _ | .crc16 _ _ | .reservedE | .reservedF => none
  | .tokenStartSingle | .tokenStartMultiWrite | .tokenStopMultiWrite | .byteIdle => none

/-- The command rows with every bit fixed, in the table's order (30 R81): each sends one frame. -/
def fixedRows : List Instr :=
  [.cmdReset, .cmdMmcInit, .cmdAppPrefix, .cmdSdcInit, .cmdSetBlocklen, .cmdReadCid, .cmdReadCsd,
    .cmdEndRead, .cmdEndWrite]

/-- The frames the engine can emit (30 R81): those of the rows with every bit fixed, and the four
commands of `BEGIN_TRANSFER` with any address. No other frame is ever emitted (30 R81, R88). -/
def isEmitted (cfg : Cfg) (idx : CmdIndex) (arg : Arg) : Bool :=
  fixedRows.any (fun i => frameOf cfg i == some (idx, arg)) ||
    [cfg.idxReadSingle, cfg.idxReadMulti, cfg.idxWriteSingle, cfg.idxWriteMulti].any (· == idx)

/-- The engine-side words that go on the bus only while chip-select is asserted: the command frames and
the start tokens (20_memory R62, 41 R125). An idle byte is sent either way (20_memory R62, 60 R245), and
the stop token is the caller's `XFER_BYTE`, admitted during a transfer only (44 R219, R202). -/
def needsSelect : Instr → Bool
  | .frame _ _ | .cmdReset | .cmdMmcInit | .cmdAppPrefix | .cmdSdcInit | .cmdSetBlocklen => true
  | .cmdReadCid | .cmdReadCsd | .cmdEndRead | .cmdEndWrite => true
  | .cmdReadSingle _ | .cmdReadMulti _ | .cmdWriteSingle _ | .cmdWriteMulti _ => true
  | .tokenStartSingle | .tokenStartMultiWrite => true
  | .tokenStopMultiWrite | .byteIdle => false
  | .isActive | .initializeCard | .capacityBytes | .getCid | .getCsd => false
  | .readBlock _ | .writeBlock _ _ | .beginTransfer _ _ _ => false
  | .startSubBlock | .stopSubBlock _ | .endTransfer _ | .xferByte _ => false
  | .crc7 _ _ | .crc16 _ _ | .reservedE | .reservedF => false

end Sys2Proof.Machine
end

