-- ==== Sys2Proof/Decode.lean ====
section
/-! DEFINITION. The decoder, total on any bytes and rejecting by name, and after it the encoder.

A word's first byte says what it is: 0x00 to 0x0F a host operation, its 4-bit operation code in bits
3:0 (30_encoding R82, R84); 0x40 to 0x7F a command frame, whose first two bits are 01b (R70); 0xFC
to 0xFF a token or the idle byte (R75, R80). The bytes of a host operation's operands follow the
operation code in the order of R85, most significant byte first; that layout is the model's
(DESIGN CHOICE, log 4), as is the marker form of a byte sequence (DESIGN CHOICE, log 5). -/

namespace Sys2Proof

open Sys2Proof.Machine

/-- Why bytes are no word. -/
inductive DecodeError where
  /-- There is no byte. -/
  | noWord
  /-- The bytes end inside a word. -/
  | truncated
  /-- The first byte belongs to no row of the table. -/
  | reservedByte (b : Byte)
  /-- The mode operand of `BEGIN_TRANSFER` is 2 bits wide (30_encoding R83). -/
  | badMode (b : Byte)
  /-- A byte sequence goes on with a marker that is neither 0 nor 1 (log 5). -/
  | badMarker (b : Byte)
  /-- The last bit of a frame is not the stop bit 1 (30_encoding R70). -/
  | badStopBit (b : Byte)
  deriving DecidableEq, Repr

/-- A result with the bytes after it. -/
abbrev Parsed (α : Type) := Except DecodeError (α × List Byte)

/-- Read on after a result, or stop with its error. -/
def andThen {α β : Type} (p : Parsed α) (next : α → List Byte → Parsed β) : Parsed β :=
  match p with
  | .ok (a, rest) => next a rest
  | .error e => .error e

/-- One operand byte. -/
def takeByte : List Byte → Parsed Byte
  | b :: rest => .ok (b, rest)
  | [] => .error .truncated

/-- A `u16` operand, most significant byte first. -/
def takeHalf : List Byte → Parsed Half
  | a :: b :: rest => .ok (joinTrailer a b, rest)
  | _ => .error .truncated

/-- `u32` from four bytes, most significant first (20_memory R54). -/
def joinArg (a b c d : Byte) : Arg :=
  (a ++ b ++ c ++ d : BitVec 32)

/-- A `u32` operand, most significant byte first. -/
def takeArg : List Byte → Parsed Arg
  | a :: b :: c :: d :: rest => .ok (joinArg a b c d, rest)
  | _ => .error .truncated

/-- Exactly `n` bytes. -/
def takeBytes : Nat → List Byte → Parsed (List Byte)
  | 0, bs => .ok ([], bs)
  | _ + 1, [] => .error .truncated
  | n + 1, b :: bs => andThen (takeBytes n bs) fun got rest => .ok (b :: got, rest)

/-- A byte sequence of any length: a marker 1 before each byte, a marker 0 after the last
(DESIGN CHOICE, log 5). -/
def takeSeq : List Byte → Parsed (List Byte)
  | [] => .error .truncated
  | [m] => if m = 0 then .ok ([], []) else if m = 1 then .error .truncated else .error (.badMarker m)
  | m :: b :: rest =>
    if m = 0 then .ok ([], b :: rest)
    else if m = 1 then andThen (takeSeq rest) fun got rest => .ok (b :: got, rest)
    else .error (.badMarker m)

/-- `READ_BLOCK`: an address (30_encoding R85). -/
def decodeReadBlock (bs : List Byte) : Parsed Instr :=
  andThen (takeArg bs) fun addr rest =>
  .ok (.readBlock addr, rest)

/-- `WRITE_BLOCK`: an address, then 512 bytes. -/
def decodeWriteBlock (bs : List Byte) : Parsed Instr :=
  andThen (takeArg bs) fun addr rest =>
  andThen (takeBytes blockLen rest) fun buf rest =>
  .ok (.writeBlock addr buf, rest)

/-- `BEGIN_TRANSFER`: a byte whose bits 1:0 are the mode, then an address. -/
def decodeBegin (bs : List Byte) : Parsed Instr :=
  andThen (takeByte bs) fun m rest =>
  andThen (takeArg rest) fun addr rest =>
  if m.extractLsb' 2 6 = 0 then
    .ok (.beginTransfer (modeDir (m.extractLsb' 0 2)) (modeGran (m.extractLsb' 0 2)) addr, rest)
  else .error (.badMode m)

/-- `STOP_SUB_BLOCK`: the trailer. -/
def decodeStop (bs : List Byte) : Parsed Instr :=
  andThen (takeHalf bs) fun crc rest =>
  .ok (.stopSubBlock crc, rest)

/-- `END_TRANSFER`: the trailer. -/
def decodeEnd (bs : List Byte) : Parsed Instr :=
  andThen (takeHalf bs) fun crc rest =>
  .ok (.endTransfer crc, rest)

/-- `XFER_BYTE`: the byte to send. -/
def decodeXfer (bs : List Byte) : Parsed Instr :=
  andThen (takeByte bs) fun out rest =>
  .ok (.xferByte out, rest)

/-- `CRC7`: the seed, then the byte sequence. -/
def decodeCrc7 (bs : List Byte) : Parsed Instr :=
  andThen (takeByte bs) fun seed rest =>
  andThen (takeSeq rest) fun bytes rest =>
  .ok (.crc7 seed bytes, rest)

/-- `CRC16`: the seed, then the byte sequence. -/
def decodeCrc16 (bs : List Byte) : Parsed Instr :=
  andThen (takeHalf bs) fun seed rest =>
  andThen (takeSeq rest) fun bytes rest =>
  .ok (.crc16 seed bytes, rest)

/-- A host operation by its operation code (30_encoding R84, R87). -/
def decodeHostOp (op : Nat) (bs : List Byte) : Parsed Instr :=
  match op with
  | 0x0 => .ok (.isActive, bs)
  | 0x1 => .ok (.initializeCard, bs)
  | 0x2 => .ok (.capacityBytes, bs)
  | 0x3 => .ok (.getCid, bs)
  | 0x4 => .ok (.getCsd, bs)
  | 0x5 => decodeReadBlock bs
  | 0x6 => decodeWriteBlock bs
  | 0x7 => decodeBegin bs
  | 0x8 => .ok (.startSubBlock, bs)
  | 0x9 => decodeStop bs
  | 0xA => decodeEnd bs
  | 0xB => decodeXfer bs
  | 0xC => decodeCrc7 bs
  | 0xD => decodeCrc16 bs
  | 0xE => .ok (.reservedE, bs)
  | _ => .ok (.reservedF, bs)

/-- The command rows with every bit fixed, in the table's order (30_encoding R81): the index and the
argument decide. With the default configuration `CMD_END_READ` and `CMD_END_WRITE` are one word, and
the first of them is read (41 R134, log 8). -/
def fixedRow (cfg : Cfg) (idx : CmdIndex) (arg : Arg) : Option Instr :=
  fixedRows.find? (fun i => frameOf cfg i == some (idx, arg))

/-- The command rows whose argument is the address operand, then the generic frame (30_encoding
R81, R70). -/
def addressRow (cfg : Cfg) (idx : CmdIndex) (arg : Arg) : Instr :=
  if idx = cfg.idxReadSingle then .cmdReadSingle arg
  else if idx = cfg.idxReadMulti then .cmdReadMulti arg
  else if idx = cfg.idxWriteSingle then .cmdWriteSingle arg
  else if idx = cfg.idxWriteMulti then .cmdWriteMulti arg
  else .frame idx arg

/-- The row that a frame with this index and argument belongs to. -/
def classify (cfg : Cfg) (idx : CmdIndex) (arg : Arg) : Instr :=
  (fixedRow cfg idx arg).getD (addressRow cfg idx arg)

/-- A command frame (30_encoding R70). The rows with an address operand and the generic row leave
the seven CRC bits free in the table, so those bits do not decide between them (DESIGN CHOICE,
log 8); a row with every bit fixed also asks that byte 5 is right. -/
def decodeFrame (cfg : Cfg) (b0 : Byte) (bs : List Byte) : Parsed Instr :=
  andThen (takeArg bs) fun arg rest =>
  andThen (takeByte rest) fun b5 rest =>
  let idx : CmdIndex := b0.extractLsb' 0 6
  if b5.getLsbD 0 then
    if b5 = crc7 0 (frameHead idx arg) then .ok (classify cfg idx arg, rest)
    else .ok (addressRow cfg idx arg, rest)
  else .error (.badStopBit b5)

/-- The first word of a byte sequence, under a configuration, with the bytes after it. -/
def decode (cfg : Cfg) : List Byte → Parsed Instr
  | [] => .error .noWord
  | b :: bs =>
    if b.extractLsb' 4 4 = 0 then decodeHostOp b.toNat bs
    else if b.extractLsb' 6 2 = 1 then decodeFrame cfg b bs
    else if b = tokenStart then .ok (.tokenStartSingle, bs)
    else if b = tokenMultiStart then .ok (.tokenStartMultiWrite, bs)
    else if b = tokenMultiStop then .ok (.tokenStopMultiWrite, bs)
    else if b = idleByte then .ok (.byteIdle, bs)
    else .error (.reservedByte b)

/-! The encoder. -/

/-- A `u16` operand, most significant byte first. -/
def halfBytes (w : Half) : List Byte := [hiByte w, loByte w]

/-- A byte sequence in the marker form (DESIGN CHOICE, log 5). -/
def seqBytes : List Byte → List Byte
  | [] => [0]
  | b :: bs => 1 :: b :: seqBytes bs

/-- The bytes of an instruction's word, under a configuration. -/
def encode (cfg : Cfg) : Instr → List Byte
  | .isActive => [0x00]
  | .initializeCard => [0x01]
  | .capacityBytes => [0x02]
  | .getCid => [0x03]
  | .getCsd => [0x04]
  | .readBlock addr => 0x05 :: argBytes addr
  | .writeBlock addr buf => 0x06 :: (argBytes addr ++ buf)
  | .beginTransfer dir gran addr => 0x07 :: (modeBits dir gran).setWidth 8 :: argBytes addr
  | .startSubBlock => [0x08]
  | .stopSubBlock crc => 0x09 :: halfBytes crc
  | .endTransfer crc => 0x0A :: halfBytes crc
  | .xferByte out => [0x0B, out]
  | .crc7 seed bytes => 0x0C :: seed :: seqBytes bytes
  | .crc16 seed bytes => 0x0D :: (halfBytes seed ++ seqBytes bytes)
  | .reservedE => [0x0E]
  | .reservedF => [0x0F]
  | .frame idx arg => frame idx arg
  | .cmdReset => frame idxReset 0
  | .cmdMmcInit => frame cfg.idxMmcInit 0
  | .cmdAppPrefix => frame cfg.idxAppPrefix 0
  | .cmdSdcInit => frame cfg.idxSdcInit cfg.argSdcInit
  | .cmdSetBlocklen => frame cfg.idxSetBlocklen 512
  | .cmdReadCid => frame cfg.idxReadCid 0
  | .cmdReadCsd => frame cfg.idxReadCsd 0
  | .cmdEndRead => frame cfg.idxEndRead 0
  | .cmdEndWrite => frame cfg.idxEndWrite 0
  | .cmdReadSingle addr => frame cfg.idxReadSingle addr
  | .cmdReadMulti addr => frame cfg.idxReadMulti addr
  | .cmdWriteSingle addr => frame cfg.idxWriteSingle addr
  | .cmdWriteMulti addr => frame cfg.idxWriteMulti addr
  | .tokenStartSingle => [tokenStart]
  | .tokenStartMultiWrite => [tokenMultiStart]
  | .tokenStopMultiWrite => [tokenMultiStop]
  | .byteIdle => [idleByte]

/-- The row that the word of an instruction is read as: itself, but for a command frame whose index
and argument belong to a row earlier in the table (log 8). -/
def canonical (cfg : Cfg) (i : Instr) : Instr :=
  match frameOf cfg i with
  | some (idx, arg) => classify cfg idx arg
  | none => i

/-! The opcode table's numbering of a word. -/

/-- The low `8 * n` bits of `w`, most significant byte first. -/
def wordBytes : Nat → Nat → List Byte
  | 0, _ => []
  | n + 1, w => BitVec.ofNat 8 (w / 256 ^ n) :: wordBytes n w

/-- The most bytes that zero operands take: `WRITE_BLOCK`'s address and buffer. -/
def maxOperandBytes : Nat := 516

/-- A table word as the hardware stores it: the table numbers a frame as one 48-bit word whose bits
47:40 are the byte sent first (30_encoding R70), and gives a host operation its operation code only,
so zero operand bytes follow. -/
def tableBytes (nbits w : Nat) : List Byte :=
  wordBytes ((nbits + 7) / 8) w ++ List.replicate maxOperandBytes 0

/-- The instruction the decoder reads from a word numbered as spec/opcode_table.json numbers it, under
the default configuration, which the table's rows assume. -/
def decodeTableWord (nbits w : Nat) : Option Instr :=
  match decode Cfg.default (tableBytes nbits w) with
  | .ok (i, _) => some i
  | .error _ => none

end Sys2Proof
end

