-- ==== Sys2Proof/Machine/State.lean ====
section
/-! DEFINITION. The state of the engine (10_state), the bus port (20_memory R58, R59), the host
port's input and response (30_encoding R86, 60_exceptions R230), the reasons a step can stop, and
the state after reset (10_state R40). -/

namespace Sys2Proof.Machine

/-- A raw register of 16 bytes, index 0 the first byte received (10_state R27, R28, 42 R150). -/
abbrev Reg16 := Vector Byte 16

/-- The Transfer Context (10_state R32). -/
structure Xfer where
  dir : Dir
  gran : Gran
  subOpen : Bool
  deriving DecidableEq, Repr

/-- The status codes of the host port (60_exceptions R230). -/
inductive Status where
  | ok
  | notActive
  | seqError
  | badOp
  | initFailReset
  | initFailNegotiation
  | initFailBlocklen
  | initFailRegister
  | cmdNoResponse
  | cmdRejected
  | tokenTimeout
  | decodeFail
  deriving DecidableEq, Repr

/-- The record `GET_CID` returns (42 R151). -/
structure CidRecord where
  mid : Byte
  oid : Vector Byte 2
  pnm : Vector Byte 5
  prvMajor : BitVec 4
  prvMinor : BitVec 4
  psn : BitVec 32
  mdtYear : BitVec 8
  mdtMonth : BitVec 4
  crc7 : BitVec 7
  stop : BitVec 1
  deriving DecidableEq, Repr

/-- The record `GET_CSD` returns: the variant the version field selects (42 R155, R156). The fields
that are not part of a layout are not there; `csdVersion` and its companions give the flat view of
R155. -/
inductive CsdRecord where
  /-- Version field 0 (42 R157). -/
  | legacy (readBlLen : BitVec 4) (cSize : BitVec 12) (cSizeMult : BitVec 3)
  /-- Version field 1 (42 R158). -/
  | highCapacity (cSize : BitVec 22)
  /-- Version field 2 or 3: only the version is meaningful (42 R155). -/
  | unknown (version : BitVec 2)
  deriving DecidableEq, Repr

/-- The value of a response (30_encoding R86). -/
inductive Value where
  /-- No value. -/
  | none
  /-- `IS_ACTIVE`. -/
  | flag (b : Bool)
  /-- `CAPACITY_BYTES`. -/
  | bytes (n : BitVec 64)
  /-- `GET_CID`. -/
  | cid (r : CidRecord)
  /-- `GET_CSD`. -/
  | csd (r : CsdRecord)
  /-- `READ_BLOCK`. -/
  | block (buf : List Byte)
  /-- `XFER_BYTE`, `CRC7`. -/
  | byte (b : Byte)
  /-- `CRC16`. -/
  | half (w : Half)
  deriving DecidableEq, Repr

/-- A response of the host port: status, value, and the three status registers as they stand after
the operation (30_encoding R86). -/
structure Response where
  status : Status
  value : Value
  lastR1 : Byte
  lastCrc16 : Half
  lastDataResp : Byte
  deriving DecidableEq, Repr

/-- Where the next received byte comes from (20_memory R59; log 2). -/
inductive Card where
  /-- A card under no law: each byte is the free value `Config.cardOracle`. -/
  | oracle (id : Nat)
  /-- R59's script: one byte an exchange, 0xFF when it is exhausted. -/
  | script (bytes : List Byte)
  deriving DecidableEq, Repr

/-- The bus port: the trace of 20_memory R58, oldest event first, and the card at its far end. -/
structure Bus where
  trace : List BusEvent
  card : Card
  deriving DecidableEq, Repr

/-- The state. The first eleven fields are the record `S` of 10_state R20; the others are the bus
port, the constant configuration, and the host port (INVENTORY.md says which are the model's own). -/
structure State where
  /-- `S.resetAck` (10_state R21). -/
  resetAck : Bool
  /-- `S.initAck` (10_state R22). -/
  initAck : Bool
  /-- `S.blkLenOk` (10_state R23). -/
  blkLenOk : Bool
  /-- `S.active` (10_state R24). -/
  active : Bool
  /-- `S.cid` (10_state R27). -/
  cid : Reg16
  /-- `S.csd` (10_state R28). -/
  csd : Reg16
  /-- `S.xfer` (10_state R32). -/
  xfer : Option Xfer
  /-- `S.cs` (10_state R34). -/
  cs : Bool
  /-- `S.lastR1` (10_state R30). -/
  lastR1 : Byte
  /-- `S.lastCrc16` (10_state R31). -/
  lastCrc16 : Half
  /-- `S.lastDataResp` (10_state R33). -/
  lastDataResp : Byte
  /-- The bus port (20_memory R58, R59; log 1, log 2). -/
  bus : Bus
  /-- `Cfg`, never written (00_scope R9 to R11, 20_memory R64; log 3). -/
  cfg : Cfg
  /-- The bytes of the operations the host presents, first at the head (00_scope R18; log 4). -/
  hostPort : List Byte
  /-- The bytes of the engine-side words, first at the head: the model's own (log 6). -/
  microPort : List Byte
  /-- The response of the last operation (30_encoding R86; log 9). -/
  response : Option Response
  deriving DecidableEq, Repr

/-- Why the machine would stop with a fault: never. The engine has no fault state and no hang
(60_exceptions R236), and its failures are status codes (R230), so nothing raises a fault. -/
inductive Fault where
  deriving DecidableEq, Repr

/-- Why a step has no meaning: bytes that are no word of the port they stand in (log 17), a frame the
engine never emits (log 22), or a frame or start token while the card is released (log 23). Safe, since
no state follows. -/
inductive Refusal where
  /-- An instruction without a meaning: raised by no arm of `exec` in this model. Safe. -/
  | notModelled (mnemonic : String)
  /-- The bytes decode to no word. Raised by `step`; safe. -/
  | undecodable (why : DecodeError)
  /-- The host port holds a word that is no host operation (30_encoding R82, R90). Raised by `step`;
  safe. -/
  | notHostOperation (i : Instr)
  /-- The engine-side port holds a host operation (log 6). Raised by `step`; safe. -/
  | notMicroWord (i : Instr)
  /-- A generic frame outside the map of the frames the engine can emit: "No other frame is ever
  emitted" (30_encoding R81, R88). Raised by `execFrame` (log 22); safe. -/
  | frameNotEmitted (idx : CmdIndex) (arg : Arg)
  /-- A command frame or a start token while chip-select is released: "chip-select must be asserted
  before any command/data byte" (20_memory R62). Raised by the meanings of those rows, through
  `State.whileSelected` (log 23); safe. -/
  | cardReleased
  deriving DecidableEq, Repr

/-- A raw register with every byte 0x00. -/
def Reg16.zero : Reg16 := Vector.replicate 16 0x00#8

/-- The state right after power-on (10_state R40, 70 R260, R261). The fields that are not of `S` are
the model's choice: log 2 (the card), log 3 (the configuration), log 13 (empty ports). -/
def State.reset : State where
  resetAck := false
  initAck := false
  blkLenOk := false
  active := false
  cid := Reg16.zero
  csd := Reg16.zero
  xfer := none
  cs := false
  lastR1 := 0xFF#8
  lastCrc16 := 0x0000#16
  lastDataResp := 0xFF#8
  bus := { trace := [], card := .oracle 0 }
  cfg := Cfg.default
  hostPort := []
  microPort := []
  response := none

end Sys2Proof.Machine
end

