-- ==== Sys2Proof/Machine/Flags.lean ====
section
/-! DEFINITION. The session flags and the status registers (10_state sections 2 and 5): the engine
has no condition codes, and no arithmetic sets a flag (R25). Each write of `S` that an operation
makes has its name here. -/

namespace Sys2Proof.Machine

/-- The numeric status code (60_exceptions R230). -/
def Status.code : Status → Byte
  | .ok => 0x00
  | .notActive => 0x01
  | .seqError => 0x02
  | .badOp => 0x03
  | .initFailReset => 0x10
  | .initFailNegotiation => 0x11
  | .initFailBlocklen => 0x12
  | .initFailRegister => 0x13
  | .cmdNoResponse => 0x20
  | .cmdRejected => 0x21
  | .tokenTimeout => 0x22
  | .decodeFail => 0x30

namespace State

/-- All four flags false and both raw registers zero (43 R171). -/
def clearSession (s : State) : State :=
  { s with
    resetAck := false, initAck := false, blkLenOk := false, active := false,
    cid := Reg16.zero, csd := Reg16.zero }

/-- `S.resetAck <- true` (43 R172). -/
def setResetAck (s : State) : State := { s with resetAck := true }

/-- `S.initAck <- true` (43 R173). -/
def setInitAck (s : State) : State := { s with initAck := true }

/-- `S.blkLenOk <- true` (43 R174). -/
def setBlkLenOk (s : State) : State := { s with blkLenOk := true }

/-- `S.active <- true` (43 R175). -/
def setActive (s : State) : State := { s with active := true }

/-- `S.cid <- v` (43 R175). -/
def setCid (v : Reg16) (s : State) : State := { s with cid := v }

/-- `S.csd <- v` (43 R175). -/
def setCsd (v : Reg16) (s : State) : State := { s with csd := v }

/-- `S.xfer <- x` (44_transfer R195, R196, R199 to R205). -/
def setXfer (x : Option Xfer) (s : State) : State := { s with xfer := x }

/-- `S.lastR1 <- r` (41 R122). -/
def setR1 (r : Byte) (s : State) : State := { s with lastR1 := r }

/-- `S.lastCrc16 <- w` (44_transfer R203 to R207). -/
def setCrc16 (w : Half) (s : State) : State := { s with lastCrc16 := w }

/-- `S.lastDataResp <- b` (44_transfer R204, R207). -/
def setDataResp (b : Byte) (s : State) : State := { s with lastDataResp := b }

/-- The bus port after some events. -/
def setBus (b : Bus) (s : State) : State := { s with bus := b }

/-- The chip-select mirror (10_state R34). -/
def setCs (c : Bool) (s : State) : State := { s with cs := c }

/-- The response of an operation: its status and value, with the three status registers as they
stand (30_encoding R86). -/
def respond (st : Status) (v : Value) (s : State) : State :=
  { s with
    response := some
      { status := st, value := v,
        lastR1 := s.lastR1, lastCrc16 := s.lastCrc16, lastDataResp := s.lastDataResp } }

end State

end Sys2Proof.Machine
end

