-- ==== Sys2Proof/Machine/Ops.lean ====
section
/-! DEFINITION. The shared operations: the bus primitives (00_scope R14), the micro-sequences of the
Command Layer and of the Transfer Engine (41 R122, 44 R191 to R195), and the failure path, which is
what the engine has in place of taking an exception (60_exceptions R235). An operation that only uses
the bus is a function of `Bus`, so that it cannot touch `S`. -/

namespace Sys2Proof.Machine

/-- The byte a card sends, and the card after it (20_memory R59). -/
def Card.answer (trace : List BusEvent) (sent : Byte) : Card → Byte × Card
  | .oracle id => (Config.cardOracle id trace sent, .oracle id)
  | .script [] => (0xFF#8, .script [])
  | .script (b :: bs) => (b, .script bs)

namespace Bus

/-- One event appended to the trace (20_memory R58). -/
def log (e : BusEvent) (b : Bus) : Bus := { b with trace := b.trace ++ [e] }

/-- `i <- Xchg(o)` (00_scope R14, 60_exceptions R243). -/
def xchg (o : Byte) (b : Bus) : Byte × Bus :=
  let a := b.card.answer b.trace o
  (a.1, { trace := b.trace ++ [.xchg o a.1], card := a.2 })

/-- `_ <- Xchg(o)`: the received byte is discarded. -/
def send (o : Byte) (b : Bus) : Bus := (b.xchg o).2

/-- `_ <- Xchg(o)` for each byte, in order. -/
def sendAll (os : List Byte) (b : Bus) : Bus := os.foldl (fun b o => b.send o) b

/-- `Idle(n)`: `n` exchanges of 0xFF (00_scope R14, 60_exceptions R245). -/
def idle : Nat → Bus → Bus
  | 0, b => b
  | n + 1, b => idle n (b.send idleByte)

/-- `Delay(ms)` (00_scope R14, 60_exceptions R246). -/
def delay (ms : Nat) (b : Bus) : Bus := b.log (.dly ms)

/-- `n` bytes received while 0xFF is sent, in order (30_encoding R80). -/
def recv : Nat → Bus → List Byte × Bus
  | 0, b => ([], b)
  | n + 1, b =>
    let x := b.xchg idleByte
    let r := recv n x.2
    (x.1 :: r.1, r.2)

/-- `n` bytes received while 0xFF is sent, as a register: byte `i` is the `i`-th received
(43 R175). -/
def recvReg : (n : Nat) → Bus → Vector Byte n × Bus
  | 0, b => (#v[], b)
  | n + 1, b =>
    let r := recvReg n b
    let x := r.2.xchg idleByte
    (r.1.push x.1, x.2)

/-- The response poll: up to `n` exchanges of 0xFF, ending at the first byte that is not 0xFF; 0xFF
if there is none (41 R122 to R124). -/
def poll : Nat → Bus → Byte × Bus
  | 0, b => (idleByte, b)
  | n + 1, b =>
    let x := b.xchg idleByte
    if x.1 ≠ idleByte then x else poll n x.2

/-- The bus side of `SendCommand`: padding byte, frame, response poll (41 R122). -/
def command (idx : CmdIndex) (arg : Arg) (b : Bus) : Byte × Bus :=
  ((b.send idleByte).sendAll (frame idx arg)).poll respPollMax

/-- `WaitToken()` with its bound and its delay (44_transfer R193). -/
def waitToken (ms : Nat) : Nat → Bus → Bool × Bus
  | 0, b => (false, b)
  | n + 1, b =>
    let x := b.xchg idleByte
    if x.1 = tokenStart then (true, x.2) else waitToken ms n (x.2.delay ms)

/-- `WaitBusy()` with its bound and its delay (44_transfer R194). -/
def waitBusy (ms : Nat) : Nat → Bus → Bus
  | 0, b => b
  | n + 1, b =>
    let x := b.xchg idleByte
    if x.1 ≠ 0x00#8 then x.2 else waitBusy ms n (x.2.delay ms)

end Bus

namespace State

/-- A bus operation without a result. -/
def onBus (f : Bus → Bus) (s : State) : State := s.setBus (f s.bus)

/-- `Sel()` (00_scope R14, 60_exceptions R244). -/
def select (s : State) : State := (s.onBus (Bus.log .sel)).setCs true

/-- `Desel()` (00_scope R14, 60_exceptions R244). -/
def deselect (s : State) : State := (s.onBus (Bus.log .desel)).setCs false

/-- `SendCommand(idx, arg)` (41 R122): the response and the state with `S.lastR1` written. -/
def sendCommand (idx : CmdIndex) (arg : Arg) (s : State) : Byte × State :=
  let r := s.bus.command idx arg
  (r.1, (s.setBus r.2).setR1 r.1)

/-- `_ <- SendCommand(idx, arg)`: the response is stored and not examined. -/
def command (idx : CmdIndex) (arg : Arg) (s : State) : State := (s.sendCommand idx arg).2

/-- `SelectSeq()` (44_transfer R191). -/
def selectSeq (s : State) : State :=
  (s.onBus fun b => (b.idle s.cfg.preSelectIdleClocks).send idleByte).select

/-- `ReleaseSeq()` (44_transfer R192): the flush, then the release. -/
def releaseSeq (s : State) : State := (s.onBus (Bus.idle s.cfg.postIdleClocks)).deselect

/-- `WaitToken()` (44_transfer R193). -/
def waitToken (s : State) : Bool × State :=
  let w := s.bus.waitToken s.cfg.tokenDelayMs s.cfg.tokenAttempts
  (w.1, s.setBus w.2)

/-- `WaitBusy()` (44_transfer R194). -/
def waitBusy (s : State) : State :=
  s.onBus (Bus.waitBusy s.cfg.busyDelayMs s.cfg.busyAttempts)

/-- `Abort()` (44_transfer R195). -/
def abort (s : State) : State := s.releaseSeq.setXfer none

/-- `refuse CODE` (00_scope R15, 60_exceptions R233): the code is returned, `S` and the bus are left
alone. -/
def refuse (st : Status) (v : Value) (s : State) : State := s.respond st v

/-- `fail CODE` (43 R176, 60_exceptions R235), the engine's way of taking an exception: what was done
so far stays done, the bus is flushed and chip-select released, and the code is returned. -/
def fail (st : Status) (v : Value) (s : State) : State := s.releaseSeq.respond st v

end State

end Sys2Proof.Machine
end

