-- ==== Sys2Proof/Machine/CrcOps.lean ====
section
/-! DEFINITION. The host operations of the CRC Engine (40_crc R105, R110) and the reserved operation
codes (30_encoding R87). -/

namespace Sys2Proof.Machine

/-- `CRC7` (40_crc R105). -/
def execCrc7 (seed : Byte) (bytes : List Byte) (s : State) : Host.Outcome State Fault Refusal :=
  .next (s.respond .ok (.byte (crc7 seed bytes)))

/-- `CRC16` (40_crc R110). -/
def execCrc16 (seed : Half) (bytes : List Byte) (s : State) : Host.Outcome State Fault Refusal :=
  .next (s.respond .ok (.half (crc16 seed bytes)))

/-- The reserved operation code 0xE: `BAD_OP` (30_encoding R87, 60_exceptions R233). -/
def execReservedE (s : State) : Host.Outcome State Fault Refusal :=
  .next (s.refuse .badOp .none)

/-- The reserved operation code 0xF: `BAD_OP` (30_encoding R87, 60_exceptions R233). -/
def execReservedF (s : State) : Host.Outcome State Fault Refusal :=
  .next (s.refuse .badOp .none)

end Sys2Proof.Machine
end

