-- ==== Sys2Proof/Machine/Initialization.lean ====
section
/-! DEFINITION. The Initialization State Machine (43): `INITIALIZE`, its four stages, and
`IS_ACTIVE`. -/

namespace Sys2Proof.Machine

namespace State

/-- The start of an initialization attempt (43 R171). -/
def startSession (s : State) : State :=
  ((s.clearSession.deselect).onBus (Bus.idle s.cfg.powerupIdleClocks)).select

/-- A `Delay` after a failed attempt (43 R172 to R174). -/
def stageDelay (s : State) : State := s.onBus (Bus.delay s.cfg.stageDelayMs)

/-- The loop of stage 1 with its budget (43 R172). -/
def resetLoop : Nat → State → State
  | 0, s => s
  | n + 1, s =>
    let p := s.sendCommand idxReset 0
    if p.1 = r1Idle then p.2.setResetAck else resetLoop n p.2.stageDelay

/-- The response does not recognize the SD command family: it is a response, and its bit
`R1_ILLEGAL_BIT` is set (43 R173). -/
def illegalCommand (cfg : Cfg) (r : Byte) : Bool :=
  r ≠ idleByte && r.getLsbD cfg.r1IllegalBit.val

/-- One attempt of stage 2: the two-frame SD-specific command, and the fallback of this attempt
(43 R173). -/
def negotiateOnce (s : State) : Byte × State :=
  let p := (s.command s.cfg.idxAppPrefix 0).sendCommand s.cfg.idxSdcInit s.cfg.argSdcInit
  if illegalCommand s.cfg p.1 then p.2.sendCommand s.cfg.idxMmcInit 0 else p

/-- The loop of stage 2 with its budget (43 R173). -/
def negotiateLoop : Nat → State → State
  | 0, s => s
  | n + 1, s =>
    let p := s.negotiateOnce
    if p.1 = r1Ready then p.2.setInitAck else negotiateLoop n p.2.stageDelay

/-- The loop of stage 3 with its budget (43 R174). -/
def blockLenLoop : Nat → State → State
  | 0, s => s
  | n + 1, s =>
    let p := s.sendCommand s.cfg.idxSetBlocklen 512
    if p.1 = r1Ready then p.2.setBlkLenOk else blockLenLoop n p.2.stageDelay

/-- The retrieval of one register in stage 4: command, token wait, 16 bytes, end-of-read command
(43 R175). `put` says which register is written; the Boolean says whether the token came. -/
def retrieve (idx : CmdIndex) (put : Reg16 → State → State) (s : State) : Bool × State :=
  let w := (s.command idx 0).waitToken
  if w.1 then
    let r := Bus.recvReg 16 w.2.bus
    (true, (put r.1 (w.2.setBus r.2)).command s.cfg.idxEndRead 0)
  else (false, w.2)

/-- Stage 4: CID, then CSD, then the session is active (43 R175, R176). -/
def stage4 (s : State) : State :=
  let c := s.retrieve s.cfg.idxReadCid setCid
  if c.1 then
    let d := c.2.retrieve s.cfg.idxReadCsd setCsd
    if d.1 then d.2.setActive.releaseSeq.respond .ok .none
    else d.2.fail .initFailRegister .none
  else c.2.fail .initFailRegister .none

/-- Stage 3, then what follows it (43 R174, R176). -/
def stage3 (s : State) : State :=
  let t := blockLenLoop s.cfg.blkLenAttempts s
  if t.blkLenOk then t.stage4 else t.fail .initFailBlocklen .none

/-- Stage 2, then what follows it (43 R173, R176). -/
def stage2 (s : State) : State :=
  let t := negotiateLoop s.cfg.initAttempts s
  if t.initAck then t.stage3 else t.fail .initFailNegotiation .none

/-- Stage 1, then what follows it (43 R172, R176). -/
def stage1 (s : State) : State :=
  let t := resetLoop s.cfg.resetAttempts s
  if t.resetAck then t.stage2 else t.fail .initFailReset .none

/-- `INITIALIZE` on a state (43 R170, R176). -/
def initializeCard (s : State) : State :=
  match s.xfer with
  | some _ => s.refuse .seqError .none
  | none => s.startSession.stage1

end State

/-- `INITIALIZE` (43 R170 to R176). -/
def execInitializeCard (s : State) : Host.Outcome State Fault Refusal := .next s.initializeCard

/-- `IS_ACTIVE` (43 R177). -/
def execIsActive (s : State) : Host.Outcome State Fault Refusal :=
  .next (s.respond .ok (.flag s.active))

end Sys2Proof.Machine
end

