-- ==== Sys2Proof/Machine/RegisterDecoder.lean ====
section
/-! DEFINITION. The Register Decoder (42): the CID and CSD records, the capacity, and the three host
operations `GET_CID`, `GET_CSD`, `CAPACITY_BYTES`. The bit positions are the spec's, which marks them
as from general knowledge (93 G4, G5; log 14). -/

namespace Sys2Proof.Machine

/-- The 128-bit numbering of a register (42 R150): bit 127 is `reg[0][7]`, bit 0 is `reg[15][0]`. -/
def regBits (v : Reg16) : BitVec 128 :=
  v.toList.foldl (fun acc b => (acc <<< 8) ||| b.setWidth 128) 0

/-- The record of `GET_CID` (42 R151). -/
def decodeCid (r : Reg16) : CidRecord where
  mid := r[0]
  oid := #v[r[1], r[2]]
  pnm := #v[r[3], r[4], r[5], r[6], r[7]]
  prvMajor := r[8].extractLsb' 4 4
  prvMinor := r[8].extractLsb' 0 4
  psn := joinArg r[9] r[10] r[11] r[12]
  mdtYear := ((r[13].extractLsb' 0 4).setWidth 8 <<< 4) ||| (r[14].extractLsb' 4 4).setWidth 8
  mdtMonth := r[14].extractLsb' 0 4
  crc7 := r[15].extractLsb' 1 7
  stop := r[15].extractLsb' 0 1

/-- The all-zero record (30_encoding R86). -/
def CidRecord.zero : CidRecord := decodeCid Reg16.zero

/-- The record of `GET_CSD`, by the version field (42 R155 to R158). -/
def decodeCsd (d : Reg16) : CsdRecord :=
  let version := d[0].extractLsb' 6 2
  if version = 0 then
    .legacy (d[5].extractLsb' 0 4)
      (((d[6].extractLsb' 0 2).setWidth 12 <<< 10) ||| (d[7].setWidth 12 <<< 2)
        ||| (d[8].extractLsb' 6 2).setWidth 12)
      (((d[9].extractLsb' 0 2).setWidth 3 <<< 1) ||| (d[10].extractLsb' 7 1).setWidth 3)
  else if version = 1 then
    .highCapacity
      (((d[7].extractLsb' 0 6).setWidth 22 <<< 16) ||| (d[8].setWidth 22 <<< 8) ||| d[9].setWidth 22)
  else .unknown version

/-- The all-zero record (30_encoding R86). -/
def CsdRecord.zero : CsdRecord := .legacy 0 0 0

namespace CsdRecord

/-- `rec.version` (42 R155). -/
def version : CsdRecord → BitVec 2
  | .legacy _ _ _ => 0
  | .highCapacity _ => 1
  | .unknown v => v

/-- `rec.cSize`, 0 where it is not part of the layout (42 R155). -/
def cSize : CsdRecord → Nat
  | .legacy _ c _ => c.toNat
  | .highCapacity c => c.toNat
  | .unknown _ => 0

/-- `rec.readBlLen`, 0 where it is not part of the layout (42 R155). -/
def readBlLen : CsdRecord → Nat
  | .legacy r _ _ => r.toNat
  | .highCapacity _ => 0
  | .unknown _ => 0

/-- `rec.cSizeMult`, 0 where it is not part of the layout (42 R155). -/
def cSizeMult : CsdRecord → Nat
  | .legacy _ _ m => m.toNat
  | .highCapacity _ => 0
  | .unknown _ => 0

/-- The exact capacity in bytes (42 R160 to R163); none for an unknown version (R164). -/
def capacity : CsdRecord → Option Nat
  | .legacy r c m => some ((c.toNat + 1) * 2 ^ (m.toNat + r.toNat + 2))
  | .highCapacity c => some ((c.toNat + 1) * 524288)
  | .unknown _ => none

end CsdRecord

/-- Status and value of `CAPACITY_BYTES` on an active session (42 R160, R164). -/
def capacityResult (d : Reg16) : Status × Value :=
  match (decodeCsd d).capacity with
  | some n => (.ok, .bytes (BitVec.ofNat 64 n))
  | none => (.decodeFail, .bytes 0)

/-- `GET_CID` on a state (42 R151). -/
def State.getCid (s : State) : State :=
  if s.active = false then s.refuse .notActive (.cid CidRecord.zero)
  else s.respond .ok (.cid (decodeCid s.cid))

/-- `GET_CSD` on a state (42 R155). -/
def State.getCsd (s : State) : State :=
  if s.active = false then s.refuse .notActive (.csd CsdRecord.zero)
  else s.respond .ok (.csd (decodeCsd s.csd))

/-- `CAPACITY_BYTES` on a state (42 R160). -/
def State.capacityBytes (s : State) : State :=
  if s.active = false then s.refuse .notActive (.bytes 0)
  else s.respond (capacityResult s.csd).1 (capacityResult s.csd).2

/-- `GET_CID` (42 R151). -/
def execGetCid (s : State) : Host.Outcome State Fault Refusal := .next s.getCid

/-- `GET_CSD` (42 R155). -/
def execGetCsd (s : State) : Host.Outcome State Fault Refusal := .next s.getCsd

/-- `CAPACITY_BYTES` (42 R160). -/
def execCapacityBytes (s : State) : Host.Outcome State Fault Refusal := .next s.capacityBytes

end Sys2Proof.Machine
end

