-- ==== Sys2Proof/Machine/Transfer.lean ====
section
/-! DEFINITION. The Transfer Engine (44): the low-level operations `BEGIN_TRANSFER`,
`START_SUB_BLOCK`, `STOP_SUB_BLOCK`, `END_TRANSFER`, `XFER_BYTE`, and the block operations
`READ_BLOCK`, `WRITE_BLOCK`. -/

namespace Sys2Proof.Machine

namespace State

/-- What follows an acknowledged command of `BEGIN_TRANSFER`: the start token of a single-block
write, the token wait of a single-block read, nothing for a multi-block transfer (44 R196, R215). -/
def beginData (dir : Dir) (gran : Gran) (s : State) : Status × State :=
  let open' : Option Xfer := some { dir, gran, subOpen := false }
  match gran, dir with
  | .multi, _ => (.ok, s.setXfer open')
  | .single, .write => (.ok, (s.onBus (Bus.send tokenStart)).setXfer open')
  | .single, .read =>
    let w := s.waitToken
    if w.1 then (.ok, w.2.setXfer open') else (.tokenTimeout, w.2.releaseSeq)

/-- `BEGIN_TRANSFER(mode, addr)` without its response (44 R196, R197); the order of the checks is
60_exceptions R234. -/
def beginTransfer (dir : Dir) (gran : Gran) (addr : Arg) (s : State) : Status × State :=
  if s.active = false then (.notActive, s)
  else if s.xfer ≠ none then (.seqError, s)
  else
    let p := s.selectSeq.sendCommand (beginIndex s.cfg dir gran) addr
    if p.1 = idleByte then (.cmdNoResponse, p.2.releaseSeq)
    else if p.1 ≠ r1Ready then (.cmdRejected, p.2.releaseSeq)
    else p.2.beginData dir gran

/-- `START_SUB_BLOCK` without its response (44 R198 to R200). -/
def startSubBlock (s : State) : Status × State :=
  match s.xfer with
  | some { dir := .write, gran := .multi, subOpen := false } =>
    (.ok, (s.waitBusy.onBus (Bus.send tokenMultiStart)).setXfer
      (some { dir := .write, gran := .multi, subOpen := true }))
  | some { dir := .read, gran := .multi, subOpen := false } =>
    let w := s.waitToken
    if w.1 then (.ok, w.2.setXfer (some { dir := .read, gran := .multi, subOpen := true }))
    else (.tokenTimeout, w.2.abort)
  | _ => (.seqError, s)

/-- The trailer of a read: two bytes received, high byte first (44 R203, R206). -/
def readTrailer (s : State) : State :=
  let hi := s.bus.xchg idleByte
  let lo := hi.2.xchg idleByte
  (s.setBus lo.2).setCrc16 (joinTrailer hi.1 lo.1)

/-- The trailer of a write and the data-response token (44 R204, R207). -/
def writeTrailer (crcOut : Half) (s : State) : State :=
  let t := ((s.bus.send (hiByte crcOut)).send (loByte crcOut)).xchg idleByte
  ((s.setBus t.2).setCrc16 crcOut).setDataResp t.1

/-- The trailer in the direction of the transfer. -/
def trailer (dir : Dir) (crcOut : Half) (s : State) : State :=
  match dir with
  | .read => s.readTrailer
  | .write => s.writeTrailer crcOut

/-- `STOP_SUB_BLOCK` without its response (44 R203, R204). -/
def stopSubBlock (crcOut : Half) (s : State) : Status × State :=
  match s.xfer with
  | some { dir, gran := .multi, subOpen := true } =>
    (.ok, (s.trailer dir crcOut).setXfer (some { dir, gran := .multi, subOpen := false }))
  | _ => (.seqError, s)

/-- The close of a transfer: the busy wait of a write, the stop command of the direction, the
release (44 R205). -/
def closeTransfer (dir : Dir) (s : State) : State :=
  match dir with
  | .write => ((s.waitBusy.command s.cfg.idxEndWrite 0).releaseSeq).setXfer none
  | .read => ((s.command s.cfg.idxEndRead 0).releaseSeq).setXfer none

/-- `END_TRANSFER(crcOut)` without its response (44 R205 to R207). -/
def endTransfer (crcOut : Half) (s : State) : Status × State :=
  match s.xfer with
  | some { dir, gran := .single, subOpen := _ } => (.ok, (s.trailer dir crcOut).closeTransfer dir)
  | some { dir, gran := .multi, subOpen := false } => (.ok, s.closeTransfer dir)
  | _ => (.seqError, s)

/-- `XFER_BYTE(out)` on a state (44 R202). -/
def xferByte (out : Byte) (s : State) : State :=
  match s.xfer with
  | none => s.refuse .seqError (.byte 0)
  | some _ =>
    let x := s.bus.xchg out
    (s.setBus x.2).respond .ok (.byte x.1)

/-- The all-zero buffer (30_encoding R86, 44 R208). -/
def zeroBlock : List Byte := List.replicate blockLen 0x00#8

/-- `READ_BLOCK(addr)` on a state (44 R208). -/
def readBlock (addr : Arg) (s : State) : State :=
  let p := s.beginTransfer .read .single addr
  if p.1 ≠ .ok then p.2.respond p.1 (.block zeroBlock)
  else
    let r := Bus.recv blockLen p.2.bus
    ((p.2.setBus r.2).endTransfer 0).2.respond .ok (.block r.1)

/-- `WRITE_BLOCK(addr, buf)` on a state (44 R209). -/
def writeBlock (addr : Arg) (buf : List Byte) (s : State) : State :=
  let p := s.beginTransfer .write .single addr
  if p.1 ≠ .ok then p.2.respond p.1 .none
  else ((p.2.onBus (Bus.sendAll buf)).endTransfer (crc16 0 buf)).2.respond .ok .none

end State

/-- `BEGIN_TRANSFER` (44 R196). -/
def execBeginTransfer (dir : Dir) (gran : Gran) (addr : Arg) (s : State) :
    Host.Outcome State Fault Refusal :=
  .next ((s.beginTransfer dir gran addr).2.respond (s.beginTransfer dir gran addr).1 .none)

/-- `START_SUB_BLOCK` (44 R198). -/
def execStartSubBlock (s : State) : Host.Outcome State Fault Refusal :=
  .next (s.startSubBlock.2.respond s.startSubBlock.1 .none)

/-- `STOP_SUB_BLOCK` (44 R203, R204). -/
def execStopSubBlock (crcOut : Half) (s : State) : Host.Outcome State Fault Refusal :=
  .next ((s.stopSubBlock crcOut).2.respond (s.stopSubBlock crcOut).1 .none)

/-- `END_TRANSFER` (44 R205). -/
def execEndTransfer (crcOut : Half) (s : State) : Host.Outcome State Fault Refusal :=
  .next ((s.endTransfer crcOut).2.respond (s.endTransfer crcOut).1 .none)

/-- `XFER_BYTE` (44 R202). -/
def execXferByte (out : Byte) (s : State) : Host.Outcome State Fault Refusal :=
  .next (s.xferByte out)

/-- `READ_BLOCK` (44 R208). -/
def execReadBlock (addr : Arg) (s : State) : Host.Outcome State Fault Refusal :=
  .next (s.readBlock addr)

/-- `WRITE_BLOCK` (44 R209). -/
def execWriteBlock (addr : Arg) (buf : List Byte) (s : State) :
    Host.Outcome State Fault Refusal :=
  .next (s.writeBlock addr buf)

end Sys2Proof.Machine
end

