-- ==== Sys2Proof/Machine/WireWords.lean ====
section
/-! DEFINITION. The engine's own words on the bus. A command frame stands for the engine's
`SendCommand` of it (41 R122, R126 to R138); a token or the idle byte for one exchange of it
(30_encoding R75, R80). They are micro-sequences, which no host operation names (30_encoding R90,
log 6); how a caller reads the response of a command (41 R139) belongs to the operations that send
it. A command or a start token goes on the bus only while chip-select is asserted (20_memory R62, 41
R125, log 23). -/

namespace Sys2Proof.Machine

/-- A piece of the engine's work that puts command or data bytes on the bus: done while chip-select is
asserted, refused by name while it is released (20_memory R62, log 23). -/
def State.whileSelected (f : State → State) (s : State) : Host.Outcome State Fault Refusal :=
  if s.cs then .next (f s) else .refused .cardReleased

/-- `FRAME`: `SendCommand(index, arg)` (41 R120, R122) of a frame the engine emits. It emits no other
frame (30 R81, R88), so none goes on the bus for one (log 22). -/
def execFrame (idx : CmdIndex) (arg : Arg) (s : State) : Host.Outcome State Fault Refusal :=
  if isEmitted s.cfg idx arg then s.whileSelected (State.command idx arg)
  else .refused (.frameNotEmitted idx arg)

/-- `CMD_RESET` (41 R126). -/
def execCmdReset (s : State) : Host.Outcome State Fault Refusal :=
  s.whileSelected (State.command idxReset 0)

/-- `CMD_MMC_INIT` (41 R127). -/
def execCmdMmcInit (s : State) : Host.Outcome State Fault Refusal :=
  s.whileSelected (State.command s.cfg.idxMmcInit 0)

/-- `CMD_APP_PREFIX` (41 R128). -/
def execCmdAppPrefix (s : State) : Host.Outcome State Fault Refusal :=
  s.whileSelected (State.command s.cfg.idxAppPrefix 0)

/-- `CMD_SDC_INIT` (41 R129). -/
def execCmdSdcInit (s : State) : Host.Outcome State Fault Refusal :=
  s.whileSelected (State.command s.cfg.idxSdcInit s.cfg.argSdcInit)

/-- `CMD_SET_BLOCKLEN` (41 R130). -/
def execCmdSetBlocklen (s : State) : Host.Outcome State Fault Refusal :=
  s.whileSelected (State.command s.cfg.idxSetBlocklen 512)

/-- `CMD_READ_CID` (41 R131). -/
def execCmdReadCid (s : State) : Host.Outcome State Fault Refusal :=
  s.whileSelected (State.command s.cfg.idxReadCid 0)

/-- `CMD_READ_CSD` (41 R132). -/
def execCmdReadCsd (s : State) : Host.Outcome State Fault Refusal :=
  s.whileSelected (State.command s.cfg.idxReadCsd 0)

/-- `CMD_END_READ` (41 R133). -/
def execCmdEndRead (s : State) : Host.Outcome State Fault Refusal :=
  s.whileSelected (State.command s.cfg.idxEndRead 0)

/-- `CMD_END_WRITE` (41 R134). -/
def execCmdEndWrite (s : State) : Host.Outcome State Fault Refusal :=
  s.whileSelected (State.command s.cfg.idxEndWrite 0)

/-- `CMD_READ_SINGLE` (41 R135). -/
def execCmdReadSingle (addr : Arg) (s : State) : Host.Outcome State Fault Refusal :=
  s.whileSelected (State.command s.cfg.idxReadSingle addr)

/-- `CMD_READ_MULTI` (41 R136). -/
def execCmdReadMulti (addr : Arg) (s : State) : Host.Outcome State Fault Refusal :=
  s.whileSelected (State.command s.cfg.idxReadMulti addr)

/-- `CMD_WRITE_SINGLE` (41 R137). -/
def execCmdWriteSingle (addr : Arg) (s : State) : Host.Outcome State Fault Refusal :=
  s.whileSelected (State.command s.cfg.idxWriteSingle addr)

/-- `CMD_WRITE_MULTI` (41 R138). -/
def execCmdWriteMulti (addr : Arg) (s : State) : Host.Outcome State Fault Refusal :=
  s.whileSelected (State.command s.cfg.idxWriteMulti addr)

/-- `TOKEN_START_SINGLE`: the engine sends 0xFE; the received byte is discarded (30 R75, 44 R196). -/
def execTokenStartSingle (s : State) : Host.Outcome State Fault Refusal :=
  s.whileSelected (State.onBus (Bus.send tokenStart))

/-- `TOKEN_START_MULTI_WRITE`: the engine sends 0xFC; the received byte is discarded (30 R75,
44 R199). -/
def execTokenStartMultiWrite (s : State) : Host.Outcome State Fault Refusal :=
  s.whileSelected (State.onBus (Bus.send tokenMultiStart))

/-- `TOKEN_STOP_MULTI_WRITE`: never sent by the engine, so its word is the caller's `XFER_BYTE 0xFD`
(44 R219, log 7). -/
def execTokenStopMultiWrite (s : State) : Host.Outcome State Fault Refusal :=
  .next (s.xferByte tokenMultiStop)

/-- `BYTE_IDLE`: one idle clock byte, 0xFF; the received byte is discarded (30 R80, 60 R245). -/
def execByteIdle (s : State) : Host.Outcome State Fault Refusal :=
  .next (s.onBus (Bus.send idleByte))

end Sys2Proof.Machine
end

