-- ==== Sys2Proof/Machine/Dispatch.lean ====
section
/-! DEFINITION. One arm per row of the opcode table. -/

namespace Sys2Proof.Machine

def exec (i : Instr) (s : State) : Host.Outcome State Fault Refusal :=
  match i with
  | .isActive => Sys2Proof.Machine.execIsActive s
  | .initializeCard => Sys2Proof.Machine.execInitializeCard s
  | .capacityBytes => Sys2Proof.Machine.execCapacityBytes s
  | .getCid => Sys2Proof.Machine.execGetCid s
  | .getCsd => Sys2Proof.Machine.execGetCsd s
  | .readBlock addr => Sys2Proof.Machine.execReadBlock addr s
  | .writeBlock addr buf => Sys2Proof.Machine.execWriteBlock addr buf s
  | .beginTransfer dir gran addr => Sys2Proof.Machine.execBeginTransfer dir gran addr s
  | .startSubBlock => Sys2Proof.Machine.execStartSubBlock s
  | .stopSubBlock crcOut => Sys2Proof.Machine.execStopSubBlock crcOut s
  | .endTransfer crcOut => Sys2Proof.Machine.execEndTransfer crcOut s
  | .xferByte out => Sys2Proof.Machine.execXferByte out s
  | .crc7 seed bytes => Sys2Proof.Machine.execCrc7 seed bytes s
  | .crc16 seed bytes => Sys2Proof.Machine.execCrc16 seed bytes s
  | .reservedE => Sys2Proof.Machine.execReservedE s
  | .reservedF => Sys2Proof.Machine.execReservedF s
  | .frame index arg => Sys2Proof.Machine.execFrame index arg s
  | .cmdReset => Sys2Proof.Machine.execCmdReset s
  | .cmdMmcInit => Sys2Proof.Machine.execCmdMmcInit s
  | .cmdAppPrefix => Sys2Proof.Machine.execCmdAppPrefix s
  | .cmdSdcInit => Sys2Proof.Machine.execCmdSdcInit s
  | .cmdSetBlocklen => Sys2Proof.Machine.execCmdSetBlocklen s
  | .cmdReadCid => Sys2Proof.Machine.execCmdReadCid s
  | .cmdReadCsd => Sys2Proof.Machine.execCmdReadCsd s
  | .cmdEndRead => Sys2Proof.Machine.execCmdEndRead s
  | .cmdEndWrite => Sys2Proof.Machine.execCmdEndWrite s
  | .cmdReadSingle addr => Sys2Proof.Machine.execCmdReadSingle addr s
  | .cmdReadMulti addr => Sys2Proof.Machine.execCmdReadMulti addr s
  | .cmdWriteSingle addr => Sys2Proof.Machine.execCmdWriteSingle addr s
  | .cmdWriteMulti addr => Sys2Proof.Machine.execCmdWriteMulti addr s
  | .tokenStartSingle => Sys2Proof.Machine.execTokenStartSingle s
  | .tokenStartMultiWrite => Sys2Proof.Machine.execTokenStartMultiWrite s
  | .tokenStopMultiWrite => Sys2Proof.Machine.execTokenStopMultiWrite s
  | .byteIdle => Sys2Proof.Machine.execByteIdle s

end Sys2Proof.Machine
end

