-- ==== Sys2Proof/Machine/Fetch.lean ====
section
/-! DEFINITION. Fetching the next word: from the engine-side port while it holds bytes, else from the
host port (DESIGN CHOICE, log 18). -/

namespace Sys2Proof.Machine

/-- A decoded word and the state without its bytes, or why there is none. -/
abbrev Fetched := Except Refusal (Instr × State)

/-- The next word of the engine-side port (log 6). -/
def State.fetchMicro (s : State) : Fetched :=
  match decode s.cfg s.microPort with
  | .error e => .error (.undecodable e)
  | .ok (i, rest) =>
    if i.isHostOp then .error (.notMicroWord i) else .ok (i, { s with microPort := rest })

/-- The next operation of the host port (00_scope R18, 30_encoding R82). -/
def State.fetchHost (s : State) : Fetched :=
  match decode s.cfg s.hostPort with
  | .error e => .error (.undecodable e)
  | .ok (i, rest) =>
    if i.isHostOp then .ok (i, { s with hostPort := rest }) else .error (.notHostOperation i)

/-- The next word, or none when both ports are empty. -/
def State.fetch (s : State) : Option Fetched :=
  if s.microPort ≠ [] then some s.fetchMicro
  else if s.hostPort ≠ [] then some s.fetchHost
  else none

/-- The bytes of a table word that its decoding uses: all of them where it decodes to nothing. -/
def usedBytes (cfg : Cfg) (bs : List Byte) : List Byte :=
  match decode cfg bs with
  | .ok (_, rest) => bs.take (bs.length - rest.length)
  | .error _ => bs

/-- Whether bytes begin as a host operation does (30_encoding R82). -/
def beginsHostOp (bs : List Byte) : Bool :=
  match bs with
  | [] => true
  | b :: _ => b.extractLsb' 4 4 == 0

/-- Whether bytes decode to a word that needs an asserted chip-select (20_memory R62). -/
def decodesToSelected (cfg : Cfg) (bs : List Byte) : Bool :=
  match decode cfg bs with
  | .ok (i, _) => needsSelect i
  | .error _ => false

/-- `s` with the card selected: `Sel()` if it is released. -/
def State.selected (s : State) : State := if s.cs then s else s.select

/-- `bs` placed before what the port its first byte belongs to holds, where the next fetch finds it; for
a command frame or a start token the card is selected, as it is whenever the engine sends one
(20_memory R62, 41 R125). -/
def State.present (s : State) (bs : List Byte) : State :=
  if beginsHostOp bs then { s with microPort := [], hostPort := bs ++ s.hostPort }
  else
    let s := if decodesToSelected s.cfg bs then s.selected else s
    { s with microPort := bs ++ s.microPort }

end Sys2Proof.Machine
end

