-- ==== Sys2Proof/Machine/Step.lean ====
section
/-! DEFINITION. One step of the machine: one whole word (00_scope R19 item 1). -/

namespace Sys2Proof.Machine

/-- One step: the next word is fetched and run; with both ports empty the engine is idle and keeps
its state (60_exceptions R248, log 16). -/
def step (s : State) : Host.Outcome State Fault Refusal :=
  match s.fetch with
  | none => .next s
  | some (.error r) => .refused r
  | some (.ok (i, s')) => exec i s'

/-- `s` with the table word `w` of `nbits` bits where `step` fetches its next instruction (log 13). -/
def State.withFetchWord (s : State) (nbits w : Nat) : State :=
  s.present (usedBytes s.cfg (tableBytes nbits w))

end Sys2Proof.Machine
end

