-- ==== Sys2Proof/Safety.lean ====
section
/-! DEFINITION. The terms claims use: the invariants between operations (10_state R25, R38), the
chip-select discipline of the trace (20_memory R62), and the shapes of the bus traffic that the
micro-sequences make, written as relations on events so that they say what the card sees whatever it
answers. -/

namespace Sys2Proof.Machine

/-! Invariants between operations. -/

/-- The flag chain (10_state R25). -/
def State.FlagChain (s : State) : Prop :=
  (s.active = true → s.blkLenOk = true) ∧ (s.blkLenOk = true → s.initAck = true) ∧
    (s.initAck = true → s.resetAck = true)

/-- The invariants of 10_state R38: (a) the flag chain, (b) a transfer implies an active session,
(c) chip-select is asserted exactly during a transfer, (d) no sub-block in a single-block transfer. -/
def State.Inv (s : State) : Prop :=
  s.FlagChain ∧ (s.xfer ≠ none → s.active = true) ∧ (s.cs = true ↔ s.xfer ≠ none) ∧
    ∀ x, s.xfer = some x → x.gran = .single → x.subOpen = false

/-- A step that has a next state. -/
def SafeStep (s : State) : Prop := ∃ t, step s = .next t

/-! Admission. -/

/-- The code with which an operation is refused in a state, in the order of 60_exceptions R234:
`BAD_OP`, then `NOT_ACTIVE` (R233), then `SEQ_ERROR` (the table of 44_transfer R190); none where it is
admitted. -/
def refusalOf (i : Instr) (s : State) : Option Status :=
  match i with
  | .reservedE | .reservedF => some .badOp
  | .capacityBytes | .getCid | .getCsd => if s.active then none else some .notActive
  | .readBlock _ | .writeBlock _ _ | .beginTransfer _ _ _ =>
    if s.active = false then some .notActive
    else if s.xfer = none then none else some .seqError
  | .startSubBlock =>
    match s.xfer with
    | some { dir := _, gran := .multi, subOpen := false } => none
    | _ => some .seqError
  | .stopSubBlock _ =>
    match s.xfer with
    | some { dir := _, gran := .multi, subOpen := true } => none
    | _ => some .seqError
  | .endTransfer _ =>
    match s.xfer with
    | some { dir := _, gran := .single, subOpen := _ } => none
    | some { dir := _, gran := .multi, subOpen := false } => none
    | _ => some .seqError
  | .xferByte _ | .tokenStopMultiWrite => if s.xfer = none then some .seqError else none
  | .initializeCard => if s.xfer = none then none else some .seqError
  | .isActive | .crc7 _ _ | .crc16 _ _ => none
  | .frame _ _ | .cmdReset | .cmdMmcInit | .cmdAppPrefix | .cmdSdcInit | .cmdSetBlocklen => none
  | .cmdReadCid | .cmdReadCsd | .cmdEndRead | .cmdEndWrite => none
  | .cmdReadSingle _ | .cmdReadMulti _ | .cmdWriteSingle _ | .cmdWriteMulti _ => none
  | .tokenStartSingle | .tokenStartMultiWrite | .byteIdle => none

/-- The value returned with a status that is not `OK`: a fixed default by the kind of value the
operation returns (30_encoding R86). -/
def defaultValue : Instr → Value
  | .isActive => .flag false
  | .capacityBytes => .bytes 0
  | .getCid => .cid CidRecord.zero
  | .getCsd => .csd CsdRecord.zero
  | .readBlock _ => .block (List.replicate 512 0x00)
  | .xferByte _ | .crc7 _ _ | .tokenStopMultiWrite => .byte 0
  | .crc16 _ _ => .half 0
  | .initializeCard | .writeBlock _ _ | .beginTransfer _ _ _ | .startSubBlock => .none
  | .stopSubBlock _ | .endTransfer _ | .reservedE | .reservedF => .none
  | .frame _ _ | .cmdReset | .cmdMmcInit | .cmdAppPrefix | .cmdSdcInit | .cmdSetBlocklen => .none
  | .cmdReadCid | .cmdReadCsd | .cmdEndRead | .cmdEndWrite => .none
  | .cmdReadSingle _ | .cmdReadMulti _ | .cmdWriteSingle _ | .cmdWriteMulti _ => .none
  | .tokenStartSingle | .tokenStartMultiWrite | .byteIdle => .none

/-- The codes an operation can return besides `OK` (60_exceptions R232). -/
def codesOf : Instr → List Status
  | .isActive | .crc7 _ _ | .crc16 _ _ => []
  | .initializeCard =>
    [.seqError, .initFailReset, .initFailNegotiation, .initFailBlocklen, .initFailRegister]
  | .capacityBytes => [.notActive, .decodeFail]
  | .getCid | .getCsd => [.notActive]
  | .beginTransfer .read .single _ =>
    [.notActive, .seqError, .cmdNoResponse, .cmdRejected, .tokenTimeout]
  | .beginTransfer .write .single _ | .beginTransfer .read .multi _
  | .beginTransfer .write .multi _ => [.notActive, .seqError, .cmdNoResponse, .cmdRejected]
  | .startSubBlock => [.seqError, .tokenTimeout]
  | .xferByte _ | .stopSubBlock _ | .endTransfer _ | .tokenStopMultiWrite => [.seqError]
  | .readBlock _ => [.notActive, .seqError, .cmdNoResponse, .cmdRejected, .tokenTimeout]
  | .writeBlock _ _ => [.notActive, .seqError, .cmdNoResponse, .cmdRejected]
  | .reservedE | .reservedF => [.badOp]
  | .frame _ _ | .cmdReset | .cmdMmcInit | .cmdAppPrefix | .cmdSdcInit | .cmdSetBlocklen => []
  | .cmdReadCid | .cmdReadCsd | .cmdEndRead | .cmdEndWrite => []
  | .cmdReadSingle _ | .cmdReadMulti _ | .cmdWriteSingle _ | .cmdWriteMulti _ => []
  | .tokenStartSingle | .tokenStartMultiWrite | .byteIdle => []

/-- The elements of `S` in the table of writers (10_state R39). -/
inductive Element where
  /-- The four flags and the two raw registers. -/
  | session
  | xfer
  | cs
  | lastR1
  | lastCrc16
  | lastDataResp
  deriving DecidableEq, Repr

/-- What an instruction may write (10_state R39); a command frame is the engine's `SendCommand`. -/
def writersTable : Instr → List Element
  | .initializeCard => [.session, .cs, .lastR1]
  | .beginTransfer _ _ _ => [.xfer, .cs, .lastR1]
  | .startSubBlock => [.xfer, .cs]
  | .stopSubBlock _ => [.xfer, .lastCrc16, .lastDataResp]
  | .endTransfer _ => [.xfer, .cs, .lastR1, .lastCrc16, .lastDataResp]
  | .readBlock _ => [.xfer, .cs, .lastR1, .lastCrc16]
  | .writeBlock _ _ => [.xfer, .cs, .lastR1, .lastCrc16, .lastDataResp]
  | .isActive | .capacityBytes | .getCid | .getCsd | .xferByte _ | .crc7 _ _ | .crc16 _ _ => []
  | .reservedE | .reservedF => []
  | .frame _ _ | .cmdReset | .cmdMmcInit | .cmdAppPrefix | .cmdSdcInit | .cmdSetBlocklen => [.lastR1]
  | .cmdReadCid | .cmdReadCsd | .cmdEndRead | .cmdEndWrite => [.lastR1]
  | .cmdReadSingle _ | .cmdReadMulti _ | .cmdWriteSingle _ | .cmdWriteMulti _ => [.lastR1]
  | .tokenStartSingle | .tokenStartMultiWrite | .tokenStopMultiWrite | .byteIdle => []

/-- Instructions one after another, stopping at the first that has no next state. -/
def runAll : List Instr → State → Host.Outcome State Fault Refusal
  | [], s => .next s
  | i :: is, s =>
    match exec i s with
    | .next t => runAll is t
    | .fault r => .fault r
    | .refused r => .refused r

/-! The chip-select discipline. -/

/-- The select line after one more event, and whether every byte other than the idle byte so far was
sent while the line was asserted (20_memory R62). -/
def trackSelect (p : Bool × Bool) : BusEvent → Bool × Bool
  | .sel => (true, p.2)
  | .desel => (false, p.2)
  | .xchg o _ => (p.1, p.2 && (p.1 || o == idleByte))
  | .dly _ => p

/-- `trackSelect` over a whole trace, from a released line. -/
def trackTrace (t : List BusEvent) : Bool × Bool := t.foldl trackSelect (false, true)

/-- The mirror `S.cs` agrees with the last select event (10_state R34), and no byte other than the
idle byte was sent while chip-select was released (20_memory R62). -/
def State.BusDiscipline (s : State) : Prop := trackTrace s.bus.trace = (s.cs, true)

/-! Counting events. -/

/-- The exchanges among some events. -/
def exchanges (ev : List BusEvent) : Nat :=
  ev.countP fun e => match e with
    | .xchg _ _ => true
    | _ => false

/-- The delays among some events. -/
def delays (ev : List BusEvent) : Nat :=
  ev.countP fun e => match e with
    | .dly _ => true
    | _ => false

/-! Shapes of bus traffic. `ev` is the events a piece of an operation appends, in order. -/

/-- `n` exchanges of the idle byte (00_scope R14). -/
def IdleEvents (n : Nat) (ev : List BusEvent) : Prop :=
  ∃ got : List Byte, got.length = n ∧ ev = got.map (BusEvent.xchg idleByte)

/-- `SendCommand(idx, arg)` answered `r` (41 R122): the padding byte and the six frame bytes with
anything received, then polls that received 0xFF, then the poll that received `r`, or 16 polls and no
response. -/
def CommandEvents (idx : CmdIndex) (arg : Arg) (r : Byte) (ev : List BusEvent) : Prop :=
  ∃ (got : List Byte) (idles : Nat), got.length = 7 ∧
    ((r = idleByte ∧ idles = respPollMax ∧
        ev = List.zipWith BusEvent.xchg (idleByte :: frame idx arg) got ++
          List.replicate idles (.xchg idleByte idleByte)) ∨
      (r ≠ idleByte ∧ idles < respPollMax ∧
        ev = List.zipWith BusEvent.xchg (idleByte :: frame idx arg) got ++
          List.replicate idles (.xchg idleByte idleByte) ++ [.xchg idleByte r]))

/-- `WaitToken` with delay `ms` and bound `n` (44_transfer R193): polls that missed the token, each
followed by a delay, then the token, or `n` misses. -/
def TokenEvents (ms n : Nat) (found : Bool) (ev : List BusEvent) : Prop :=
  ∃ missed : List Byte, (∀ b ∈ missed, b ≠ tokenStart) ∧
    ((found = true ∧ missed.length < n ∧
        ev = missed.flatMap (fun b => [.xchg idleByte b, .dly ms]) ++ [.xchg idleByte tokenStart]) ∨
      (found = false ∧ missed.length = n ∧
        ev = missed.flatMap (fun b => [.xchg idleByte b, .dly ms])))

/-- `WaitBusy` with delay `ms` and bound `n` (44_transfer R194): polls that received 0x00, each
followed by a delay, then a non-zero byte, or `n` busy polls. -/
def BusyEvents (ms n : Nat) (ev : List BusEvent) : Prop :=
  ∃ busy : Nat,
    (busy = n ∧
        ev = (List.replicate busy [.xchg idleByte 0x00, .dly ms]).flatten) ∨
      (busy < n ∧ ∃ b : Byte, b ≠ 0x00 ∧
        ev = (List.replicate busy [.xchg idleByte 0x00, .dly ms]).flatten ++ [.xchg idleByte b])

/-- `SelectSeq` with `n` idle clock bytes (44_transfer R191). -/
def SelectEvents (n : Nat) (ev : List BusEvent) : Prop :=
  ∃ e, IdleEvents (n + 1) e ∧ ev = e ++ [.sel]

/-- `ReleaseSeq` with `n` idle clock bytes (44_transfer R192). -/
def ReleaseEvents (n : Nat) (ev : List BusEvent) : Prop :=
  ∃ e, IdleEvents n e ∧ ev = e ++ [.desel]

/-- A bounded stage (43 R172 to R174): failed attempts, each followed by a delay, then an attempt
answered `good`, or `n` failed attempts. `one r e` says that an attempt answered `r` with events
`e`; `last` is the response of the last attempt, or `before` if there was none (60_exceptions R230). -/
def StageEvents (one : Byte → List BusEvent → Prop) (good : Byte) (ms n : Nat) (done : Bool)
    (before last : Byte) (ev : List BusEvent) : Prop :=
  ∃ failed : List (Byte × List BusEvent), (∀ a ∈ failed, a.1 ≠ good ∧ one a.1 a.2) ∧
    ((done = true ∧ failed.length < n ∧ last = good ∧ ∃ e, one good e ∧
        ev = failed.flatMap (fun a => a.2 ++ [.dly ms]) ++ e) ∨
      (done = false ∧ failed.length = n ∧ last = (failed.map Prod.fst).getLastD before ∧
        ev = failed.flatMap (fun a => a.2 ++ [.dly ms])))

/-- One attempt of stage 2 that ends with the response `r` (43 R173): the two-frame SD-specific
command, and the MMC command if its response was not 0xFF and had the illegal-command bit set. -/
def NegotiateEvents (cfg : Cfg) (r : Byte) (ev : List BusEvent) : Prop :=
  ∃ (rp rs : Byte) (e1 e2 : List BusEvent),
    CommandEvents cfg.idxAppPrefix 0 rp e1 ∧ CommandEvents cfg.idxSdcInit cfg.argSdcInit rs e2 ∧
    (((rs ≠ idleByte ∧ rs.getLsbD cfg.r1IllegalBit.val = true) ∧
        ∃ e3, CommandEvents cfg.idxMmcInit 0 r e3 ∧ ev = e1 ++ e2 ++ e3) ∨
      (¬ (rs ≠ idleByte ∧ rs.getLsbD cfg.r1IllegalBit.val = true) ∧ r = rs ∧ ev = e1 ++ e2))

/-- The trailer of a read (44_transfer R203, R206): the two bytes `hi`, `lo` received. -/
def ReadTrailerEvents (hi lo : Byte) : List BusEvent := [.xchg idleByte hi, .xchg idleByte lo]

/-- The trailer of a write and the data-response token `resp` (44_transfer R204, R207); `g1`, `g2` are
received and discarded. -/
def WriteTrailerEvents (crc : Half) (g1 g2 resp : Byte) : List BusEvent :=
  [.xchg (crc.extractLsb' 8 8) g1, .xchg (crc.extractLsb' 0 8) g2, .xchg idleByte resp]

/-- The close of a transfer (44_transfer R205): the busy wait of a write, the stop command of the
direction, answered `r`, and the release. -/
def CloseEvents (cfg : Cfg) (dir : Dir) (r : Byte) (ev : List BusEvent) : Prop :=
  ∃ e1 e2 e3 : List BusEvent, ev = e1 ++ e2 ++ e3 ∧
    (match dir with
      | .read => e1 = [] ∧ CommandEvents cfg.idxEndRead 0 r e2
      | .write =>
        BusyEvents cfg.busyDelayMs cfg.busyAttempts e1 ∧ CommandEvents cfg.idxEndWrite 0 r e2) ∧
    ReleaseEvents cfg.postIdleClocks e3

/-- The retrieval of one register in stage 4 (43 R175): the command, the token wait, and if the token
came the 16 bytes of `reg` and the end-of-read command; `last` is the response of the last of these
commands. -/
def RetrieveEvents (cfg : Cfg) (idx : CmdIndex) (found : Bool) (reg : Reg16) (last : Byte)
    (ev : List BusEvent) : Prop :=
  ∃ (r : Byte) (e1 e2 : List BusEvent),
    CommandEvents idx 0 r e1 ∧ TokenEvents cfg.tokenDelayMs cfg.tokenAttempts found e2 ∧
    ((found = false ∧ reg = Reg16.zero ∧ last = r ∧ ev = e1 ++ e2) ∨
      (found = true ∧ ∃ e3 : List BusEvent, CommandEvents cfg.idxEndRead 0 last e3 ∧
        ev = e1 ++ e2 ++ reg.toList.map (BusEvent.xchg idleByte) ++ e3))

/-- The four stages of an `INITIALIZE` that ends with status `st` and leaves the registers `cid` and
`csd` (43 R172 to R176): the stages in order, none after the one that failed. `last` is the response of
the last command sent, or `before` if none was (60_exceptions R230). -/
def InitEvents (cfg : Cfg) (st : Status) (cid csd : Reg16) (before last : Byte)
    (ev : List BusEvent) : Prop :=
  ∃ (e1 e2 e3 e4 e5 : List BusEvent) (r1 r2 r3 r4 : Byte), ev = e1 ++ e2 ++ e3 ++ e4 ++ e5 ∧
    StageEvents (CommandEvents idxReset 0) r1Idle cfg.stageDelayMs cfg.resetAttempts
      (decide (st ≠ .initFailReset)) before r1 e1 ∧
    (if st = .initFailReset then r2 = r1 ∧ e2 = []
      else StageEvents (NegotiateEvents cfg) r1Ready cfg.stageDelayMs cfg.initAttempts
        (decide (st ≠ .initFailNegotiation)) r1 r2 e2) ∧
    (if st = .initFailReset ∨ st = .initFailNegotiation then r3 = r2 ∧ e3 = []
      else StageEvents (CommandEvents cfg.idxSetBlocklen 512) r1Ready cfg.stageDelayMs
        cfg.blkLenAttempts (decide (st ≠ .initFailBlocklen)) r2 r3 e3) ∧
    ((st = .ok ∧ RetrieveEvents cfg cfg.idxReadCid true cid r4 e4 ∧
        RetrieveEvents cfg cfg.idxReadCsd true csd last e5) ∨
      (st = .initFailRegister ∧ RetrieveEvents cfg cfg.idxReadCid true cid r4 e4 ∧
        RetrieveEvents cfg cfg.idxReadCsd false csd last e5) ∨
      (st = .initFailRegister ∧ RetrieveEvents cfg cfg.idxReadCid false cid last e4 ∧
        e5 = [] ∧ csd = Reg16.zero) ∨
      ((st = .initFailReset ∨ st = .initFailNegotiation ∨ st = .initFailBlocklen) ∧ last = r3 ∧
        e4 = [] ∧ e5 = [] ∧ cid = Reg16.zero ∧ csd = Reg16.zero))

end Sys2Proof.Machine
end

