-- ==== Sys2Proof/Certificates/Slice0/Obligations.lean ====
section
/-! DEFINITION. The statements for the provers. A docstring names the rule of spec/ it formalises, or
says that the statement rests on a choice of the model's own. -/

open Sys2Proof Sys2Proof.Machine

/-! ## Terms of the statements -/

namespace Sys2Proof.Machine

/-- A bit vector as a polynomial over GF(2), bit `i` the coefficient of `x^i` (40_crc R115). -/
noncomputable def bitsPoly {w : Nat} (v : BitVec w) : Polynomial (ZMod 2) :=
  ∑ i ∈ Finset.range w, if v.getLsbD i then Polynomial.X ^ i else 0

/-- A message as a polynomial over GF(2), its first bit the highest power (40_crc R115). -/
noncomputable def messagePoly (m : List Byte) : Polynomial (ZMod 2) :=
  m.foldl (fun p b => p * Polynomial.X ^ 8 + bitsPoly b) 0

/-- The exclusive-or of two byte sequences, byte by byte (40_crc R113). -/
def xorBytes (a b : List Byte) : List Byte := List.zipWith (· ^^^ ·) a b

/-- Running `i` in `s` is `SendCommand(idx, arg)` (41 R122): the bus gains that command's events,
the response is stored in `S.lastR1`, and nothing else changes. -/
def SendsCommand (i : Instr) (s : State) (idx : CmdIndex) (arg : Arg) : Prop :=
  ∃ (r : Byte) (ev : List BusEvent) (b : Bus),
    CommandEvents idx arg r ev ∧ b.trace = s.bus.trace ++ ev ∧
      exec i s = .next { s with bus := b, lastR1 := r }

/-- Running `i` in `s` is one exchange that sends `o` and discards what it receives. -/
def SendsByte (i : Instr) (s : State) (o : Byte) : Prop :=
  ∃ (g : Byte) (b : Bus), b.trace = s.bus.trace ++ [.xchg o g] ∧ exec i s = .next { s with bus := b }

/-- What a card that answers the response `r` at the first poll sends during one `SendCommand`. -/
def promptReply (r : Byte) : List Byte := List.replicate 7 0xFF ++ [r]

end Sys2Proof.Machine

/-! ## The CRC Engine (40_crc) -/

/-- 40_crc R105. -/
def Obligations.Crc7OperationResult : Prop :=
  (∀ (seed : Byte) (bytes : List Byte) (s : State),
    exec (.crc7 seed bytes) s = .next (s.respond .ok (.byte (crc7 seed bytes)))) ∧
  crc7 0 [0x77, 0, 0, 0, 0] = 0x65

/-- 40_crc R110. -/
def Obligations.Crc16OperationResult : Prop :=
  (∀ (seed : Half) (bytes : List Byte) (s : State),
    exec (.crc16 seed bytes) s = .next (s.respond .ok (.half (crc16 seed bytes)))) ∧
  crc16 0 [0x31, 0x32, 0x33, 0x34, 0x35, 0x36, 0x37, 0x38, 0x39] = 0x31C3

/-- The values that 40_crc R103 and R108 print, among them the source's own 0x95 and the two over 512
bytes. -/
def Obligations.CrcPrintedValues : Prop :=
  crc7 0 [] = 0x01 ∧ crc7 0x7F [] = 0xFF ∧ crc7 0xFF [] = 0xFF ∧ crc7 0 [0x00] = 0x01 ∧
  crc7 0 [0x01] = 0x13 ∧ crc7 0 [0x80] = 0x83 ∧ crc7 0 [0xFF] = 0xF3 ∧
  crc7 0 [0x40, 0, 0, 0, 0] = 0x95 ∧
  (∀ s : Half, crc16 s [] = s) ∧ crc16 0 [0x00] = 0x0000 ∧ crc16 0 [0x01] = 0x1021 ∧
  crc16 0 [0x80] = 0x9188 ∧ crc16 0 [0xFF] = 0x1EF0 ∧
  crc16 0 (List.replicate 512 0x00) = 0x0000 ∧ crc16 0 (List.replicate 512 0xFF) = 0x7FA1 ∧
  crc16 0 [0x31, 0x32, 0x33, 0x34, 0x35, 0x36, 0x37, 0x38, 0x39] = 0x31C3

/-- 40_crc R112 ("derived: from rules R102, R103, R107, R108"): both generators continue on the raw
register, and the packed CRC7 holds it in bits 7:1. -/
def Obligations.CrcContinuation : Prop :=
  (∀ (r : BitVec 7) (a b : List Byte), crc7Raw (crc7Raw r a) b = crc7Raw r (a ++ b)) ∧
  (∀ (s : Half) (a b : List Byte), crc16 (crc16 s a) b = crc16 s (a ++ b)) ∧
  (∀ (s : Byte) (m : List Byte), crc7Raw (s.extractLsb' 0 7) m = (crc7 s m).extractLsb' 1 7) ∧
  (∀ (s : Byte) (a b : List Byte),
    crc7 (((crc7 s a).extractLsb' 1 7).setWidth 8) b = crc7 s (a ++ b))

/-- 40_crc R113 ("derived: from rules R101, R107"): linearity over exclusive-or, of CRC16, of the
raw CRC7 register, and of the packed CRC7. -/
def Obligations.CrcLinearity : Prop :=
  ∀ a b : List Byte, a.length = b.length →
    (∀ s t : Half, crc16 (s ^^^ t) (xorBytes a b) = crc16 s a ^^^ crc16 t b) ∧
    (∀ s t : BitVec 7, crc7Raw (s ^^^ t) (xorBytes a b) = crc7Raw s a ^^^ crc7Raw t b) ∧
    crc7 0 (xorBytes a b) = (crc7 0 a ^^^ crc7 0 b) ||| 0x01

/-- 40_crc R114 ("derived: from rules R101 to R104, R107"): the residues over a message followed by
its own CRC. -/
def Obligations.CrcResidues : Prop :=
  ∀ m : List Byte,
    crc7 0 (m ++ [crc7 0 m]) = 0x13 ∧ crc7Raw 0 (m ++ [crc7 0 m]) = 0x09 ∧
    crc16 0 (m ++ [(crc16 0 m).extractLsb' 8 8, (crc16 0 m).extractLsb' 0 8]) = 0x0000

/-- 40_crc R115 ("derived: from rules R101, R107"): both generators compute the remainder of the
message polynomial. -/
def Obligations.CrcIsPolynomialRemainder : Prop :=
  open Polynomial in
  (∀ (s : BitVec 7) (m : List Byte),
    bitsPoly (crc7Raw s m) =
      (bitsPoly s * X ^ (8 * m.length) + messagePoly m * X ^ 7) %ₘ (X ^ 7 + X ^ 3 + 1)) ∧
  (∀ (s : Half) (m : List Byte),
    bitsPoly (crc16 s m) =
      (bitsPoly s * X ^ (8 * m.length) + messagePoly m * X ^ 16) %ₘ (X ^ 16 + X ^ 12 + X ^ 5 + 1))

/-- 40_crc R116 ("derived: from rule R101"): the 8-bit realisation keeps the register in bits 6:0
and the bit shifted out in bit 7, and yields the same CRC7. -/
def Obligations.Crc7EightBitRealisation : Prop :=
  (∀ (v : Byte) (d : Bool),
    (crc7Bit8 v d).extractLsb' 0 7 = crc7Bit (v.extractLsb' 0 7) d ∧
    (crc7Bit8 v d).getLsbD 7 = v.getLsbD 6) ∧
  (∀ (seed : Byte) (bytes : List Byte), crc7By8 seed bytes = crc7 seed bytes)

/-! ## Encodings (30_encoding, 41_command_layer part 1) -/

/-- 41 R121 ("derived: from rule R120 and 40_crc.md rule R104") with the layout of 30_encoding R70:
the first two bits are 01b, the index and the big-endian argument follow, byte 5 is the CRC7 of the
five before it and is odd. -/
def Obligations.FrameLayout : Prop :=
  ∀ (idx : CmdIndex) (arg : Arg), ∃ f0 f1 f2 f3 f4 f5 : Byte,
    frame idx arg = [f0, f1, f2, f3, f4, f5] ∧
    f0.toNat = 64 + idx.toNat ∧ 0x40 ≤ f0.toNat ∧ f0.toNat ≤ 0x7F ∧
    arg.toNat = 2 ^ 24 * f1.toNat + 2 ^ 16 * f2.toNat + 2 ^ 8 * f3.toNat + f4.toNat ∧
    f5 = crc7 0 [f0, f1, f2, f3, f4] ∧ f5.toNat % 2 = 1 ∧
    f5.toNat / 2 = (crc7Raw 0 [f0, f1, f2, f3, f4]).toNat

/-- The frames that 41 R126 to R138 print, with the default configuration. -/
def Obligations.PrintedFrames : Prop :=
  let c := Cfg.default
  encode c .cmdReset = [0x40, 0, 0, 0, 0, 0x95] ∧ encode c .cmdMmcInit = [0x41, 0, 0, 0, 0, 0xF9] ∧
  encode c .cmdAppPrefix = [0x77, 0, 0, 0, 0, 0x65] ∧
  encode c .cmdSdcInit = [0x69, 0x40, 0, 0, 0, 0x77] ∧
  encode c .cmdSetBlocklen = [0x50, 0, 0, 0x02, 0, 0x15] ∧
  encode c .cmdReadCid = [0x4A, 0, 0, 0, 0, 0x1B] ∧ encode c .cmdReadCsd = [0x49, 0, 0, 0, 0, 0xAF] ∧
  encode c .cmdEndRead = [0x4C, 0, 0, 0, 0, 0x61] ∧ encode c .cmdEndWrite = [0x4C, 0, 0, 0, 0, 0x61] ∧
  encode c (.cmdReadSingle 0) = [0x51, 0, 0, 0, 0, 0x55] ∧
  encode c (.cmdReadSingle 0x200) = [0x51, 0, 0, 0x02, 0, 0x79] ∧
  encode c (.cmdReadMulti 0) = [0x52, 0, 0, 0, 0, 0xE1] ∧
  encode c (.cmdWriteSingle 0x200) = [0x58, 0, 0, 0x02, 0, 0x43] ∧
  encode c (.cmdWriteMulti 0x12345600) = [0x59, 0x12, 0x34, 0x56, 0, 0x05]

/-- Words written out from 30_encoding R70, R75, R80, R84 decode to their rows. That a host
operation's code is a byte of its own, with zero operand bytes behind it, and that a first byte tells
the word are the model's (log 4, log 6), as is the form of the empty byte sequence (log 5). -/
def Obligations.WordsDecodeToTheirRows : Prop :=
  decodeTableWord 8 0x00 = some .isActive ∧ decodeTableWord 8 0x01 = some .initializeCard ∧
  decodeTableWord 8 0x05 = some (.readBlock 0) ∧ decodeTableWord 8 0x0C = some (.crc7 0 []) ∧
  decodeTableWord 8 0x0E = some .reservedE ∧
  decodeTableWord 48 0x400000000095 = some .cmdReset ∧
  decodeTableWord 48 0x694000000077 = some .cmdSdcInit ∧
  decodeTableWord 48 0x5912345600_05 = some (.cmdWriteMulti 0x12345600) ∧
  decodeTableWord 48 0x7FFFFFFFFF19 = some (.frame 63 0xFFFFFFFF) ∧
  decodeTableWord 8 0xFE = some .tokenStartSingle ∧ decodeTableWord 8 0xFF = some .byteIdle ∧
  decodeTableWord 8 0x20 = none

/-- Decoding the word of a well-formed instruction gives the instruction back, whatever follows it
and under every configuration; a command frame that two rows share is read as the first of them (log
8), which under the default configuration is the row itself for every row but `CMD_END_WRITE` and the
generic one; a generic frame that the engine never emits is read as itself. The operand layout of the host operations is the model's (log 4, log 5). -/
def Obligations.DecodeEncodeAgree : Prop :=
  ∀ (cfg : Cfg) (i : Instr) (rest : List Byte), i.wf = true →
    decode cfg (encode cfg i ++ rest) = .ok (canonical cfg i, rest) ∧
    (frameOf cfg i = none → canonical cfg i = i) ∧
    (∀ idx arg, frameOf cfg i = some (idx, arg) → frameOf cfg (canonical cfg i) = some (idx, arg)) ∧
    (∀ idx arg, i = .frame idx arg → isEmitted cfg idx arg = false → canonical cfg i = i) ∧
    (i ≠ .cmdEndWrite → (∀ idx arg, i ≠ .frame idx arg) → canonical Cfg.default i = i) ∧
    (i = .cmdEndWrite → canonical Cfg.default i = .cmdEndRead)

/-- Rows that share a word run the same (the model's reading of a shared word, log 8). -/
def Obligations.RowsWithOneWordRunTheSame : Prop :=
  ∀ (i j : Instr) (s : State), i.wf = true → j.wf = true → encode s.cfg i = encode s.cfg j →
    exec i s = exec j s

/-- What the decoder reads is well-formed (30_encoding R85), and its first byte says which port it
belongs to (30_encoding R82: a host operation has a 4-bit operation code; that it is a byte of its
own is log 4). -/
def Obligations.DecodedInstructionsAreWellFormed : Prop :=
  ∀ (cfg : Cfg) (b : Byte) (bs rest : List Byte) (i : Instr),
    decode cfg (b :: bs) = .ok (i, rest) →
      i.wf = true ∧ (i.isHostOp = true ↔ b.toNat < 16)

/-- Bytes that begin no row of the table are rejected by name (30_encoding R70, R75, R84; that a
word is told by its first byte is log 4 and log 6). -/
def Obligations.ReservedFirstBytesRejected : Prop :=
  ∀ (cfg : Cfg) (b : Byte) (bs : List Byte),
    (16 ≤ b.toNat ∧ b.toNat < 64) ∨ (128 ≤ b.toNat ∧ b.toNat < 252) →
      decode cfg (b :: bs) = .error (.reservedByte b)

/-! ## The step -/

/-- A step runs the word it decodes: the engine-side port first (log 18), else the host port; with
both empty the engine is idle (60_exceptions R248, log 16). -/
def Obligations.StepRunsTheDecodedWord : Prop :=
  (∀ (s : State) (i : Instr) (rest : List Byte), s.microPort = [] →
    decode s.cfg s.hostPort = .ok (i, rest) → i.isHostOp = true →
      step s = exec i { s with hostPort := rest }) ∧
  (∀ (s : State) (i : Instr) (rest : List Byte),
    decode s.cfg s.microPort = .ok (i, rest) → i.isHostOp = false →
      step s = exec i { s with microPort := rest }) ∧
  (∀ s : State, s.microPort = [] → s.hostPort = [] → step s = .next s)

/-- An operation the host presents at the head of its port is run, whatever it presents after it
(30_encoding R82; the byte layout is the model's, log 4). -/
def Obligations.PresentedOperationRuns : Prop :=
  ∀ (s : State) (i : Instr) (more : List Byte), i.wf = true → i.isHostOp = true →
    s.microPort = [] → s.hostPort = encode s.cfg i ++ more →
      step s = exec i { s with hostPort := more }

/-- 60_exceptions R236, of every instruction: none fails to return, in any state, but a generic frame
that the engine never emits (30_encoding R81, R88), and a frame or start token while chip-select is
released (20_memory R62), which are refused by name. The engine-side rows are the model's own (log 6,
log 22, log 23), a refusal code is a next state (log 10), and the bus primitives return (log 20). -/
def Obligations.EveryInstructionReturns : Prop :=
  (∀ (i : Instr) (s : State), (∀ idx arg, i = .frame idx arg → isEmitted s.cfg idx arg = true) →
    (needsSelect i = true → s.cs = true) → ∃ t, exec i s = .next t) ∧
  (∀ (i : Instr) (s : State) (r : Refusal), exec i s = .refused r →
    (∃ idx arg, i = .frame idx arg ∧ isEmitted s.cfg idx arg = false ∧
      r = .frameNotEmitted idx arg) ∨
    (needsSelect i = true ∧ s.cs = false ∧ r = .cardReleased))

/-! ## Reset -/

/-- 10_state R40. -/
def Obligations.ResetValues : Prop :=
  let s := State.reset
  s.resetAck = false ∧ s.initAck = false ∧ s.blkLenOk = false ∧ s.active = false ∧
  (∀ i : Fin 16, s.cid[i] = 0x00 ∧ s.csd[i] = 0x00) ∧ s.xfer = none ∧ s.cs = false ∧
  s.lastR1 = 0xFF ∧ s.lastCrc16 = 0x0000 ∧ s.lastDataResp = 0xFF

/-- 70_reset_and_hazards R263 ("derived: from 10_state.md rule R40 and 44_transfer.md rule R190"):
what each operation answers right after reset. -/
def Obligations.AnswersAfterReset : Prop :=
  let answer (i : Instr) : Option Status :=
    match exec i State.reset with
    | .next t => t.response.map (·.status)
    | .fault _ => none
    | .refused _ => none
  answer .isActive = some .ok ∧
  (∀ seed bytes, answer (.crc7 seed bytes) = some .ok) ∧
  (∀ seed bytes, answer (.crc16 seed bytes) = some .ok) ∧
  (∃ st, answer .initializeCard = some st ∧ st ≠ .notActive ∧ st ≠ .seqError) ∧
  answer .capacityBytes = some .notActive ∧ answer .getCid = some .notActive ∧
  answer .getCsd = some .notActive ∧
  (∀ d g addr, answer (.beginTransfer d g addr) = some .notActive) ∧
  (∀ addr, answer (.readBlock addr) = some .notActive) ∧
  (∀ addr buf, answer (.writeBlock addr buf) = some .notActive) ∧
  answer .startSubBlock = some .seqError ∧ (∀ c, answer (.stopSubBlock c) = some .seqError) ∧
  (∀ o, answer (.xferByte o) = some .seqError) ∧ (∀ c, answer (.endTransfer c) = some .seqError)

/-! ## Responses and refusals (60_exceptions) -/

/-- 30_encoding R86: every response carries the three status registers as they stand after the
operation. A status other than `OK` comes with the fixed default value of the operation: R86 calls that
value unspecified unless the operation's rule says otherwise, and the default is the choice it tells a
model to make (log 11). -/
def Obligations.ResponsesCarryStatusRegisters : Prop :=
  ∀ (i : Instr) (s t : State), i.isHostOp = true → exec i s = .next t →
    ∃ st v, t.response = some
        { status := st, value := v, lastR1 := t.lastR1, lastCrc16 := t.lastCrc16,
          lastDataResp := t.lastDataResp } ∧
      (st ≠ .ok → v = defaultValue i)

/-- 60_exceptions R233 with the table of 44_transfer R190 in the order of R234: a refused operation
returns its code, changes no state and produces no bus event. Its value is the default that R86 tells a
model to return (log 11). -/
def Obligations.RefusedOperationsChangeNothing : Prop :=
  ∀ (i : Instr) (s : State) (st : Status), i.isHostOp = true → refusalOf i s = some st →
    exec i s = .next (s.respond st (defaultValue i))

/-- 44_transfer R190: an operation the table admits is not refused. -/
def Obligations.AdmittedOperationsAreNotRefused : Prop :=
  ∀ (i : Instr) (s : State), i.isHostOp = true → refusalOf i s = none →
    ∃ t r, exec i s = .next t ∧ t.response = some r ∧
      r.status ≠ .badOp ∧ r.status ≠ .notActive ∧ r.status ≠ .seqError

/-- 30_encoding R87: the reserved operation codes are answered `BAD_OP`, with no state change and no
bus event. -/
def Obligations.ReservedOperationCodesAnswerBadOp : Prop :=
  ∀ (s : State) (bs : List Byte),
    decode s.cfg (0x0E :: bs) = .ok (.reservedE, bs) ∧
    decode s.cfg (0x0F :: bs) = .ok (.reservedF, bs) ∧
    (∀ i : Instr, i = .reservedE ∨ i = .reservedF →
      exec i s = .next (s.respond .badOp .none))

/-- 60_exceptions R232 ("derived: from the rules of files 40 to 44"): an operation returns no code
but those of its row; a token timeout of `BEGIN_TRANSFER` is for a single-block read only, and one
of `START_SUB_BLOCK` for a read only. -/
def Obligations.StatusCodesOfEachOperation : Prop :=
  ∀ (i : Instr) (s t : State) (r : Response), i.isHostOp = true → exec i s = .next t →
    t.response = some r →
      (r.status = .ok ∨ r.status ∈ codesOf i) ∧
      (i = .startSubBlock → r.status = .tokenTimeout → ∃ x, s.xfer = some x ∧ x.dir = .read)

/-- 60_exceptions R230: the numeric codes. -/
def Obligations.StatusCodeNumbers : Prop :=
  Status.ok.code = 0x00 ∧ Status.notActive.code = 0x01 ∧ Status.seqError.code = 0x02 ∧
  Status.badOp.code = 0x03 ∧ Status.initFailReset.code = 0x10 ∧
  Status.initFailNegotiation.code = 0x11 ∧ Status.initFailBlocklen.code = 0x12 ∧
  Status.initFailRegister.code = 0x13 ∧ Status.cmdNoResponse.code = 0x20 ∧
  Status.cmdRejected.code = 0x21 ∧ Status.tokenTimeout.code = 0x22 ∧
  Status.decodeFail.code = 0x30 ∧ (∀ a b : Status, a.code = b.code → a = b)

/-! ## The Register Decoder (42_register_decoder) -/

/-- 43 R177. -/
def Obligations.IsActiveResult : Prop :=
  ∀ s : State, exec .isActive s = .next (s.respond .ok (.flag s.active))

/-- 42 R152: the CID fields by the bits of the 128-bit numbering (R150), on an active session;
nothing but the response changes. The positions are the spec's "from general knowledge" (93 G4, log
14). -/
def Obligations.CidFieldsByBitPosition : Prop :=
  ∀ s : State, s.active = true →
    let n := regBits s.cid
    exec .getCid s = .next (s.respond .ok (.cid
          { mid := n.extractLsb' 120 8,
            oid := #v[n.extractLsb' 112 8, n.extractLsb' 104 8],
            pnm := #v[n.extractLsb' 96 8, n.extractLsb' 88 8, n.extractLsb' 80 8,
              n.extractLsb' 72 8, n.extractLsb' 64 8],
            prvMajor := n.extractLsb' 60 4, prvMinor := n.extractLsb' 56 4,
            psn := n.extractLsb' 24 32, mdtYear := n.extractLsb' 12 8,
            mdtMonth := n.extractLsb' 8 4, crc7 := n.extractLsb' 1 7, stop := n.extractLsb' 0 1 }))

/-- 42 R157, R158 with R150, R155: the CSD fields by the bits of the 128-bit numbering, on an active
session; nothing but the response changes. The positions are the spec's "from general knowledge" (93
G5, log 14). -/
def Obligations.CsdFieldsByBitPosition : Prop :=
  ∀ s : State, s.active = true →
    let n := regBits s.csd
    let v : BitVec 2 := n.extractLsb' 126 2
    exec .getCsd s = .next (s.respond .ok (.csd
          (if v = 0 then
            .legacy (n.extractLsb' 80 4) (n.extractLsb' 62 12) (n.extractLsb' 47 3)
          else if v = 1 then .highCapacity (n.extractLsb' 48 22)
          else .unknown v)))

/-- 42 R160 with R150, R157, R158: the capacity of an active session; nothing but the response
changes. The positions are the spec's "from general knowledge" (93 G5, log 14), the legacy form for
small exponents is its extension (92 D29, log 15). -/
def Obligations.CapacityFormulas : Prop :=
  ∀ s : State, s.active = true →
    let n := regBits s.csd
    let v : BitVec 2 := n.extractLsb' 126 2
    let size (k w : Nat) : Nat := (n.extractLsb' k w).toNat
    ∃ (st : Status) (bytes : BitVec 64),
      exec .capacityBytes s = .next (s.respond st (.bytes bytes)) ∧
      (v = 0 → st = .ok ∧ bytes.toNat = (size 62 12 + 1) * 2 ^ (size 47 3 + size 80 4 + 2)) ∧
      (v = 1 → st = .ok ∧ bytes.toNat = (size 48 22 + 1) * 524288) ∧
      (v ≠ 0 → v ≠ 1 → st = .decodeFail ∧ bytes = 0)

/-- 42 R163 (with the extension of R161, log 15): the exact capacity, its largest values and its
divisibility. -/
def Obligations.CapacityBounds : Prop :=
  (∀ (r : BitVec 4) (c : BitVec 12) (m : BitVec 3) (n : Nat),
    (CsdRecord.legacy r c m).capacity = some n →
      n ≤ 2 ^ 36 ∧ (7 ≤ m.toNat + r.toNat → n % 512 = 0)) ∧
  (∀ (c : BitVec 22) (n : Nat), (CsdRecord.highCapacity c).capacity = some n →
    n ≤ 2 ^ 41 ∧ n % 512 = 0) ∧
  (CsdRecord.legacy 15 0xFFF 7).capacity = some (2 ^ 36) ∧
  (CsdRecord.highCapacity 0x3FFFFF).capacity = some (2 ^ 41)

/-! ## The Command Layer (41_command_layer) -/

/-- 41 R122 with R123, R124: `SendCommand` sends the padding byte and the frame, polls at most 16
times, stops at the first byte that is not 0xFF, stores the response in `S.lastR1`, and changes
nothing else, while chip-select is asserted. A frame outside the map of 30_encoding R81 is never
emitted (R81, R88), and none while chip-select is released (20_memory R62): it is refused by name, with
no bus event. That the frame's word stands for its `SendCommand` is the model's choice (log 6, log 22,
log 23). -/
def Obligations.GenericFrameSendsCommand : Prop :=
  (∀ (idx : CmdIndex) (arg : Arg) (s : State), isEmitted s.cfg idx arg = true →
    (s.cs = true → SendsCommand (.frame idx arg) s idx arg) ∧
    (s.cs = false → exec (.frame idx arg) s = .refused .cardReleased)) ∧
  (∀ (idx : CmdIndex) (arg : Arg) (s : State), isEmitted s.cfg idx arg = false →
    exec (.frame idx arg) s = .refused (.frameNotEmitted idx arg)) ∧
  (∀ (idx : CmdIndex) (arg : Arg), isEmitted Cfg.default idx arg = true ↔
    (arg = 0 ∧ (idx = 0 ∨ idx = 1 ∨ idx = 9 ∨ idx = 10 ∨ idx = 12 ∨ idx = 55)) ∨
    (arg = 512 ∧ idx = 16) ∨ (arg = 0x40000000 ∧ idx = 41) ∨
    idx = 17 ∨ idx = 18 ∨ idx = 24 ∨ idx = 25)

/-- 41 R140 ("derived: from rule R122"): a `SendCommand` makes 8 to 23 exchanges and no delay, and
neither asserts nor releases chip-select. That the word of a command row stands for its `SendCommand`
is the model's choice (log 6). -/
def Obligations.CommandExchangeCount : Prop :=
  (∀ (idx : CmdIndex) (arg : Arg) (b : Bus), ∃ ev, (b.command idx arg).2.trace = b.trace ++ ev ∧
    8 ≤ exchanges ev ∧ exchanges ev ≤ 23 ∧ ev.length = exchanges ev) ∧
  (∀ (i : Instr) (s t : State), (frameOf s.cfg i).isSome = true → exec i s = .next t →
    ∃ ev, t.bus.trace = s.bus.trace ++ ev ∧ 8 ≤ exchanges ev ∧ exchanges ev ≤ 23 ∧
      ev.length = exchanges ev ∧ t.cs = s.cs)

/-- 41 R126 to R138: the command rows send the frame of their index and argument while chip-select is
asserted, and are refused by name while it is released (20_memory R62, 41 R125). That the frame's word
stands for its `SendCommand` is the model's choice (log 6, log 23). -/
def Obligations.CommandRowsSendTheirFrames : Prop :=
  (∀ (s : State) (addr : Arg), s.cs = true →
    SendsCommand .cmdReset s 0 0 ∧ SendsCommand .cmdMmcInit s s.cfg.idxMmcInit 0 ∧
    SendsCommand .cmdAppPrefix s s.cfg.idxAppPrefix 0 ∧
    SendsCommand .cmdSdcInit s s.cfg.idxSdcInit s.cfg.argSdcInit ∧
    SendsCommand .cmdSetBlocklen s s.cfg.idxSetBlocklen 512 ∧
    SendsCommand .cmdReadCid s s.cfg.idxReadCid 0 ∧ SendsCommand .cmdReadCsd s s.cfg.idxReadCsd 0 ∧
    SendsCommand .cmdEndRead s s.cfg.idxEndRead 0 ∧ SendsCommand .cmdEndWrite s s.cfg.idxEndWrite 0 ∧
    SendsCommand (.cmdReadSingle addr) s s.cfg.idxReadSingle addr ∧
    SendsCommand (.cmdReadMulti addr) s s.cfg.idxReadMulti addr ∧
    SendsCommand (.cmdWriteSingle addr) s s.cfg.idxWriteSingle addr ∧
    SendsCommand (.cmdWriteMulti addr) s s.cfg.idxWriteMulti addr) ∧
  (∀ (i : Instr) (s : State), (frameOf s.cfg i).isSome = true → (∀ idx arg, i ≠ .frame idx arg) →
    s.cs = false → exec i s = .refused .cardReleased)

/-- The tokens and the idle byte are one exchange of that byte (30_encoding R75, R80), a start token
while chip-select is asserted, refused by name while it is released (20_memory R62); the stop token is
the caller's `XFER_BYTE 0xFD` (44_transfer R219). The word form of these rows is the model's (log 6, log
7, log 23). -/
def Obligations.TokenRowsSendTheirByte : Prop :=
  ∀ s : State,
    (s.cs = true → SendsByte .tokenStartSingle s 0xFE ∧ SendsByte .tokenStartMultiWrite s 0xFC) ∧
    (s.cs = false → exec .tokenStartSingle s = .refused .cardReleased ∧
      exec .tokenStartMultiWrite s = .refused .cardReleased) ∧
    SendsByte .byteIdle s 0xFF ∧
    (s.xfer ≠ none → ∃ (g : Byte) (b : Bus), b.trace = s.bus.trace ++ [.xchg 0xFD g] ∧
      exec .tokenStopMultiWrite s = .next (State.respond .ok (.byte g) { s with bus := b })) ∧
    exec .tokenStopMultiWrite s = exec (.xferByte 0xFD) s

/-! ## The Initialization State Machine (43_initialization) -/

/-- 43 R170 to R176: `INITIALIZE` with no transfer in flight runs the power-up sequence, the four
stages in order, none after the one that failed, and the release; its status says which stage
failed, the flags stand as the stages left them, and nothing but them, the registers, chip-select
and `S.lastR1` (the response of the last command sent, 10_state R30, 60_exceptions R230) changes. With
a transfer in flight it is refused. -/
def Obligations.InitializeRunsTheStagesInOrder : Prop :=
  (∀ s : State, s.xfer ≠ none → exec .initializeCard s = .next (s.respond .seqError .none)) ∧
  (∀ s : State, s.xfer = none →
    ∃ (st : Status) (cid csd : Reg16) (e0 e1 e2 : List BusEvent) (b : Bus) (r : Byte),
      IdleEvents s.cfg.powerupIdleClocks e0 ∧ InitEvents s.cfg st cid csd s.lastR1 r e1 ∧
      ReleaseEvents s.cfg.postIdleClocks e2 ∧
      b.trace = s.bus.trace ++ ([.desel] ++ e0 ++ [.sel]) ++ e1 ++ e2 ∧
      exec .initializeCard s = .next (State.respond st .none { s with
        resetAck := decide (st ≠ .initFailReset)
        initAck := decide (st ≠ .initFailReset ∧ st ≠ .initFailNegotiation)
        blkLenOk := decide (st = .initFailRegister ∨ st = .ok)
        active := decide (st = .ok)
        cid := cid, csd := csd, cs := false, lastR1 := r, bus := b }))

/-- 43 R178 ("derived: from rules R172 to R176") with the silent card of 95_test_vectors P6: the
trace holds `RESET_ATTEMPTS` reset frames and no other, and the session is inactive. -/
def Obligations.SilentCardGetsOnlyResetFrames : Prop :=
  ∀ s : State, s.xfer = none → s.bus.card = .script [] →
    ∃ t, exec .initializeCard s = .next t ∧ t.active = false ∧
      t.response.map (·.status) = some .initFailReset ∧
      t.bus.trace = s.bus.trace ++ [.desel] ++
        List.replicate s.cfg.powerupIdleClocks (.xchg 0xFF 0xFF) ++ [.sel] ++
        (List.replicate s.cfg.resetAttempts
          (([0xFF, 0x40, 0, 0, 0, 0, 0x95] : List Byte).map (BusEvent.xchg · 0xFF) ++
            List.replicate 16 (.xchg 0xFF 0xFF) ++ [.dly s.cfg.stageDelayMs])).flatten ++
        List.replicate s.cfg.postIdleClocks (.xchg 0xFF 0xFF) ++ [.desel]

/-- 43 R175 with R172 to R174: a card that answers every command at the first poll makes the session
active with the registers it sent, in wire order (10_state R27, R28). -/
def Obligations.PromptCardBecomesActive : Prop :=
  ∀ (s : State) (cid csd : Reg16), s.xfer = none →
    0 < s.cfg.resetAttempts → 0 < s.cfg.initAttempts → 0 < s.cfg.blkLenAttempts →
    0 < s.cfg.tokenAttempts →
    s.bus.card = .script (List.replicate s.cfg.powerupIdleClocks 0xFF ++ promptReply 0x01 ++
      promptReply 0x01 ++ promptReply 0x00 ++ promptReply 0x00 ++
      promptReply 0x00 ++ [0xFE] ++ cid.toList ++ promptReply 0x00 ++
      promptReply 0x00 ++ [0xFE] ++ csd.toList ++ promptReply 0x00) →
    ∃ t, exec .initializeCard s = .next t ∧ t.response.map (·.status) = some .ok ∧
      t.active = true ∧ t.cid = cid ∧ t.csd = csd ∧ t.cs = false ∧ t.lastR1 = 0x00

/-- 43 R179 ("derived: from rules R171 to R176 and 41_command_layer.md rule R140"): the bounds on
the exchanges and delays of `INITIALIZE`. -/
def Obligations.InitializeIsBounded : Prop :=
  ∀ s t : State, exec .initializeCard s = .next t →
    ∃ ev, t.bus.trace = s.bus.trace ++ ev ∧
      exchanges ev ≤ s.cfg.powerupIdleClocks + 23 * s.cfg.resetAttempts + 69 * s.cfg.initAttempts +
        23 * s.cfg.blkLenAttempts + 2 * (23 + s.cfg.tokenAttempts + 16 + 23) + s.cfg.postIdleClocks ∧
      delays ev ≤ s.cfg.resetAttempts + s.cfg.initAttempts + s.cfg.blkLenAttempts +
        2 * s.cfg.tokenAttempts

/-! ## The Transfer Engine (44_transfer) -/

/-- 44_transfer R197 with 30_encoding R83: the four values of the mode operand and their commands;
the byte the operand stands in is the model's (log 4). -/
def Obligations.ModeOperandTable : Prop :=
  ∀ (cfg : Cfg) (bs rest : List Byte) (addr : Arg), takeArg bs = .ok (addr, rest) →
    decode cfg (0x07 :: 0 :: bs) = .ok (.beginTransfer .read .single addr, rest) ∧
    decode cfg (0x07 :: 1 :: bs) = .ok (.beginTransfer .write .single addr, rest) ∧
    decode cfg (0x07 :: 2 :: bs) = .ok (.beginTransfer .read .multi addr, rest) ∧
    decode cfg (0x07 :: 3 :: bs) = .ok (.beginTransfer .write .multi addr, rest) ∧
    beginIndex cfg .read .single = cfg.idxReadSingle ∧
    beginIndex cfg .write .single = cfg.idxWriteSingle ∧
    beginIndex cfg .read .multi = cfg.idxReadMulti ∧
    beginIndex cfg .write .multi = cfg.idxWriteMulti

/-- 44_transfer R196, R197, R215: `BEGIN_TRANSFER` on an active session with no transfer selects the
card, sends its command once with the address unchanged, and goes on only on the response 0x00; a
failure releases the card and leaves no transfer. Elsewhere it is refused. -/
def Obligations.BeginTransferOutcomes : Prop :=
  (∀ (dir : Dir) (gran : Gran) (addr : Arg) (s : State),
    (s.active = false → exec (.beginTransfer dir gran addr) s = .next (s.respond .notActive .none)) ∧
    (s.active = true → s.xfer ≠ none →
      exec (.beginTransfer dir gran addr) s = .next (s.respond .seqError .none))) ∧
  (∀ (dir : Dir) (gran : Gran) (addr : Arg) (s : State), s.active = true → s.xfer = none →
    ∃ (r : Byte) (e1 e2 e3 : List BusEvent) (b : Bus) (st : Status),
      SelectEvents s.cfg.preSelectIdleClocks e1 ∧
      CommandEvents (beginIndex s.cfg dir gran) addr r e2 ∧
      b.trace = s.bus.trace ++ e1 ++ e2 ++ e3 ∧
      exec (.beginTransfer dir gran addr) s = .next (State.respond st .none { s with
        bus := b, lastR1 := r, cs := decide (st = .ok)
        xfer := if st = .ok then some { dir, gran, subOpen := false } else none }) ∧
      ((r = 0xFF ∧ st = .cmdNoResponse ∧ ReleaseEvents s.cfg.postIdleClocks e3) ∨
        (r ≠ 0xFF ∧ r ≠ 0x00 ∧ st = .cmdRejected ∧ ReleaseEvents s.cfg.postIdleClocks e3) ∨
        (r = 0x00 ∧ gran = .multi ∧ st = .ok ∧ e3 = []) ∨
        (r = 0x00 ∧ gran = .single ∧ dir = .write ∧ st = .ok ∧ ∃ g, e3 = [.xchg 0xFE g]) ∨
        (r = 0x00 ∧ gran = .single ∧ dir = .read ∧ st = .ok ∧
          TokenEvents s.cfg.tokenDelayMs s.cfg.tokenAttempts true e3) ∨
        (r = 0x00 ∧ gran = .single ∧ dir = .read ∧ st = .tokenTimeout ∧
          ∃ e4 e5, TokenEvents s.cfg.tokenDelayMs s.cfg.tokenAttempts false e4 ∧
            ReleaseEvents s.cfg.postIdleClocks e5 ∧ e3 = e4 ++ e5)))

/-- 44_transfer R199: `START_SUB_BLOCK` of a multi-block write waits while busy, sends 0xFC, and
cannot fail. -/
def Obligations.StartSubBlockOfWrite : Prop :=
  ∀ s : State, s.xfer = some { dir := .write, gran := .multi, subOpen := false } →
    ∃ (e : List BusEvent) (g : Byte) (b : Bus),
      BusyEvents s.cfg.busyDelayMs s.cfg.busyAttempts e ∧
      b.trace = s.bus.trace ++ e ++ [.xchg 0xFC g] ∧
      exec .startSubBlock s = .next (State.respond .ok .none { s with
        bus := b, xfer := some { dir := .write, gran := .multi, subOpen := true } })

/-- 44_transfer R200 with R195: `START_SUB_BLOCK` of a multi-block read waits for the start token; a
timeout ends the whole transfer and releases the card. -/
def Obligations.StartSubBlockOfRead : Prop :=
  ∀ s : State, s.xfer = some { dir := .read, gran := .multi, subOpen := false } →
    ∃ (found : Bool) (e1 e2 : List BusEvent) (b : Bus),
      TokenEvents s.cfg.tokenDelayMs s.cfg.tokenAttempts found e1 ∧
      (if found then e2 = [] else ReleaseEvents s.cfg.postIdleClocks e2) ∧
      b.trace = s.bus.trace ++ e1 ++ e2 ∧
      exec .startSubBlock s = .next (State.respond (if found then .ok else .tokenTimeout) .none
        { s with
        bus := b, cs := if found then s.cs else false
        xfer := if found then some { dir := .read, gran := .multi, subOpen := true } else none })

/-- 44_transfer R203, R204: `STOP_SUB_BLOCK` takes in the trailer of a read, or sends that of a
write and keeps the data-response token, and closes the sub-block. -/
def Obligations.StopSubBlockTrailer : Prop :=
  ∀ (crc : Half) (s : State),
    (s.xfer = some { dir := .read, gran := .multi, subOpen := true } →
      ∃ (hi lo : Byte) (b : Bus), b.trace = s.bus.trace ++ ReadTrailerEvents hi lo ∧
        exec (.stopSubBlock crc) s = .next (State.respond .ok .none { s with
          bus := b, xfer := some { dir := .read, gran := .multi, subOpen := false }
          lastCrc16 := hi ++ lo })) ∧
    (s.xfer = some { dir := .write, gran := .multi, subOpen := true } →
      ∃ (g1 g2 resp : Byte) (b : Bus), b.trace = s.bus.trace ++ WriteTrailerEvents crc g1 g2 resp ∧
        exec (.stopSubBlock crc) s = .next (State.respond .ok .none { s with
          bus := b, xfer := some { dir := .write, gran := .multi, subOpen := false }
          lastCrc16 := crc, lastDataResp := resp }))

/-- 44_transfer R205 to R207: `END_TRANSFER` of each kind of transfer: the trailer of a single-block
transfer, the busy wait of a write, the stop command, the release; it always returns `OK`. With no
transfer, or with a sub-block open, it is refused. -/
def Obligations.EndTransferOfEachKind : Prop :=
  (∀ (crc : Half) (s : State),
    (s.xfer = none ∨ ∃ x, s.xfer = some x ∧ x.gran = .multi ∧ x.subOpen = true) →
      exec (.endTransfer crc) s = .next (s.respond .seqError .none)) ∧
  (∀ (crc : Half) (s : State) (x : Xfer), s.xfer = some x →
    (x.gran = .multi → x.subOpen = false) →
    ∃ (e1 e2 : List BusEvent) (b : Bus) (r : Byte) (crc' : Half) (resp : Byte),
      (match x.gran, x.dir with
        | .multi, _ => e1 = [] ∧ crc' = s.lastCrc16 ∧ resp = s.lastDataResp
        | .single, .read =>
          ∃ hi lo : Byte, e1 = ReadTrailerEvents hi lo ∧ crc' = hi ++ lo ∧ resp = s.lastDataResp
        | .single, .write => ∃ g1 g2 : Byte, e1 = WriteTrailerEvents crc g1 g2 resp ∧ crc' = crc) ∧
      CloseEvents s.cfg x.dir r e2 ∧ b.trace = s.bus.trace ++ e1 ++ e2 ∧
      exec (.endTransfer crc) s = .next (State.respond .ok .none { s with
        bus := b, xfer := none, cs := false, lastR1 := r, lastCrc16 := crc', lastDataResp := resp }))

/-- 44_transfer R202: `XFER_BYTE` is one exchange, admitted whenever a transfer is in flight, and
writes no element of `S`; with no transfer it is refused, with the default value of R86 (log 11). -/
def Obligations.XferByteIsOneExchange : Prop :=
  ∀ (out : Byte) (s : State),
    (s.xfer = none → exec (.xferByte out) s = .next (s.respond .seqError (.byte 0))) ∧
    (s.xfer ≠ none → ∃ (g : Byte) (b : Bus), b.trace = s.bus.trace ++ [.xchg out g] ∧
      exec (.xferByte out) s = .next (State.respond .ok (.byte g) { s with bus := b }))

/-- 44_transfer R208 with 20_memory R65: a `READ_BLOCK` that succeeds returns the 512 bytes it
received, in order, and the trailer in `S.lastCrc16`; one that fails or is refused returns a zero
buffer. -/
def Obligations.ReadBlockOutcomes : Prop :=
  (∀ (addr : Arg) (s : State),
    (s.active = false → exec (.readBlock addr) s =
      .next (s.respond .notActive (.block (List.replicate 512 0x00)))) ∧
    (s.active = true → s.xfer ≠ none → exec (.readBlock addr) s =
      .next (s.respond .seqError (.block (List.replicate 512 0x00))))) ∧
  (∀ (addr : Arg) (s : State), s.active = true → s.xfer = none →
    ∃ (r : Byte) (e1 e2 e3 : List BusEvent) (b : Bus) (st : Status) (buf : List Byte) (r' : Byte)
        (crc : Half),
      SelectEvents s.cfg.preSelectIdleClocks e1 ∧ CommandEvents s.cfg.idxReadSingle addr r e2 ∧
      b.trace = s.bus.trace ++ e1 ++ e2 ++ e3 ∧ buf.length = 512 ∧
      exec (.readBlock addr) s = .next (State.respond st (.block buf) { s with
        bus := b, lastR1 := r', lastCrc16 := crc, cs := false }) ∧
      ((st = .ok ∧ r = 0x00 ∧ ∃ (e4 e5 : List BusEvent) (hi lo : Byte),
          TokenEvents s.cfg.tokenDelayMs s.cfg.tokenAttempts true e4 ∧
          CloseEvents s.cfg .read r' e5 ∧ crc = hi ++ lo ∧
          e3 = e4 ++ buf.map (BusEvent.xchg 0xFF) ++ ReadTrailerEvents hi lo ++ e5) ∨
        (st ≠ .ok ∧ buf = List.replicate 512 0x00 ∧ crc = s.lastCrc16 ∧ r' = r ∧
          ((r = 0xFF ∧ st = .cmdNoResponse ∧ ReleaseEvents s.cfg.postIdleClocks e3) ∨
            (r ≠ 0xFF ∧ r ≠ 0x00 ∧ st = .cmdRejected ∧ ReleaseEvents s.cfg.postIdleClocks e3) ∨
            (r = 0x00 ∧ st = .tokenTimeout ∧ ∃ e4 e5,
              TokenEvents s.cfg.tokenDelayMs s.cfg.tokenAttempts false e4 ∧
              ReleaseEvents s.cfg.postIdleClocks e5 ∧ e3 = e4 ++ e5)))))

/-- 44_transfer R209 with 20_memory R55, R65: a `WRITE_BLOCK` that succeeds sends 0xFE, the 512
bytes in buffer order, and their CRC16 high byte first, and keeps the data-response token; one that
fails or is refused writes neither. -/
def Obligations.WriteBlockOutcomes : Prop :=
  (∀ (addr : Arg) (buf : List Byte) (s : State),
    (s.active = false → exec (.writeBlock addr buf) s = .next (s.respond .notActive .none)) ∧
    (s.active = true → s.xfer ≠ none →
      exec (.writeBlock addr buf) s = .next (s.respond .seqError .none))) ∧
  (∀ (addr : Arg) (buf : List Byte) (s : State), buf.length = 512 → s.active = true →
    s.xfer = none →
    ∃ (r : Byte) (e1 e2 e3 : List BusEvent) (b : Bus) (st : Status) (r' : Byte) (crc : Half)
        (resp : Byte),
      SelectEvents s.cfg.preSelectIdleClocks e1 ∧ CommandEvents s.cfg.idxWriteSingle addr r e2 ∧
      b.trace = s.bus.trace ++ e1 ++ e2 ++ e3 ∧
      exec (.writeBlock addr buf) s = .next (State.respond st .none { s with
        bus := b, lastR1 := r', lastCrc16 := crc, lastDataResp := resp, cs := false }) ∧
      ((st = .ok ∧ r = 0x00 ∧ crc = crc16 0 buf ∧
          ∃ (e4 : List BusEvent) (g g1 g2 : Byte) (got : List Byte),
            got.length = 512 ∧ CloseEvents s.cfg .write r' e4 ∧
            e3 = [.xchg 0xFE g] ++ List.zipWith BusEvent.xchg buf got ++
              WriteTrailerEvents (crc16 0 buf) g1 g2 resp ++ e4) ∨
        (crc = s.lastCrc16 ∧ resp = s.lastDataResp ∧ r' = r ∧
          ReleaseEvents s.cfg.postIdleClocks e3 ∧
          ((r = 0xFF ∧ st = .cmdNoResponse) ∨ (r ≠ 0xFF ∧ r ≠ 0x00 ∧ st = .cmdRejected)))))

/-- 44_transfer R196: a card that answers the command 0x00 at the first poll, and sends the start
token next, lets every mode of `BEGIN_TRANSFER` open its transfer. -/
def Obligations.PromptCardBeginsATransfer : Prop :=
  ∀ (dir : Dir) (gran : Gran) (addr : Arg) (rest : List Byte) (s : State),
    s.active = true → s.xfer = none → 0 < s.cfg.tokenAttempts →
    s.bus.card = .script (List.replicate (s.cfg.preSelectIdleClocks + 1) 0xFF ++ promptReply 0x00 ++
      [0xFE] ++ rest) →
    ∃ b : Bus, exec (.beginTransfer dir gran addr) s = .next (State.respond .ok .none { s with
      bus := b, lastR1 := 0x00, cs := true, xfer := some { dir, gran, subOpen := false } })

/-- 44_transfer R208, R209: a card that answers at the first poll, sends a block with its trailer,
or takes one with the data-response token `resp`, lets `READ_BLOCK` and `WRITE_BLOCK` end with `OK`.
-/
def Obligations.PromptCardServesBlocks : Prop :=
  ∀ (addr : Arg) (buf : List Byte) (hi lo resp : Byte) (s : State), buf.length = 512 →
    s.active = true → s.xfer = none → 0 < s.cfg.tokenAttempts → 0 < s.cfg.busyAttempts →
    (s.bus.card = .script (List.replicate (s.cfg.preSelectIdleClocks + 1) 0xFF ++ promptReply 0x00 ++
        [0xFE] ++ buf ++ [hi, lo] ++ promptReply 0x00) →
      ∃ b : Bus, exec (.readBlock addr) s = .next (State.respond .ok (.block buf) { s with
        bus := b, lastR1 := 0x00, lastCrc16 := hi ++ lo, cs := false })) ∧
    (s.bus.card = .script (List.replicate (s.cfg.preSelectIdleClocks + 1) 0xFF ++ promptReply 0x00 ++
        [0xFF] ++ List.replicate 512 0xFF ++ [0xFF, 0xFF, resp] ++ [0xFF] ++ promptReply 0x00) →
      ∃ b : Bus, exec (.writeBlock addr buf) s = .next (State.respond .ok .none { s with
        bus := b, lastR1 := 0x00, lastCrc16 := crc16 0 buf, lastDataResp := resp, cs := false }))

/-- 44_transfer R214 ("derived: from rules R208, R209", and 30_encoding R90): `READ_BLOCK` and
`WRITE_BLOCK` have the same traces and end states as the canonical sequences of low-level operations,
but for the response, whether they answer `OK` or fail; one that answers `OK` differs in the value of
`READ_BLOCK`'s response only. One that does not is its `BEGIN_TRANSFER`, with the same status. -/
def Obligations.BlockOperationsAreTheirSequences : Prop :=
  (∀ (addr : Arg) (crc : Half) (s t : State), exec (.readBlock addr) s = .next t →
    (s.xfer = none → ∃ u, runAll ([.beginTransfer .read .single addr] ++
        List.replicate 512 (.xferByte 0xFF) ++ [.endTransfer crc]) s = .next u ∧
      t = { u with response := t.response } ∧
      (t.response.map (·.status) = some .ok → u.response.map (·.status) = some .ok)) ∧
    (t.response.map (·.status) ≠ some .ok → ∃ u,
      exec (.beginTransfer .read .single addr) s = .next u ∧
        t = { u with response := t.response } ∧
        t.response.map (·.status) = u.response.map (·.status))) ∧
  (∀ (addr : Arg) (buf : List Byte) (s t : State), exec (.writeBlock addr buf) s = .next t →
    (s.xfer = none → ∃ u, runAll ([.beginTransfer .write .single addr] ++ buf.map .xferByte ++
        [.endTransfer (crc16 0 buf)]) s = .next u ∧
      t = { u with response := t.response } ∧
      (t.response.map (·.status) = some .ok → u = t)) ∧
    (t.response.map (·.status) ≠ some .ok →
      exec (.beginTransfer .write .single addr) s = .next t))

/-- 44_transfer R218 ("derived: from rules R202, R204, R207, R208, R209"), 20_memory R65: the bytes
a caller moves appear on the bus unchanged and in order, and nothing but the bus and the response
changes. -/
def Obligations.PayloadBytesPassInOrder : Prop :=
  ∀ (payload : List Byte) (s : State), s.xfer ≠ none →
    ∃ (t : State) (got : List Byte), runAll (payload.map .xferByte) s = .next t ∧
      got.length = payload.length ∧
      t.bus.trace = s.bus.trace ++ List.zipWith BusEvent.xchg payload got ∧
      t = { s with bus := t.bus, response := t.response }

/-- 44_transfer R216 ("derived: from rules R191 to R207"): the bounds on the exchanges of the
transfer operations. -/
def Obligations.TransferOperationsAreBounded : Prop :=
  ∀ (i : Instr) (s t : State), exec i s = .next t →
    ∃ ev, t.bus.trace = s.bus.trace ++ ev ∧
      (∀ d g a, i = .beginTransfer d g a → exchanges ev ≤
        s.cfg.preSelectIdleClocks + 1 + 23 + max 1 s.cfg.tokenAttempts + s.cfg.postIdleClocks) ∧
      (i = .startSubBlock → exchanges ev ≤
        max (s.cfg.busyAttempts + 1) (s.cfg.tokenAttempts + s.cfg.postIdleClocks)) ∧
      (∀ c, i = .stopSubBlock c → exchanges ev ≤ 3) ∧
      (∀ o, i = .xferByte o → s.xfer ≠ none → exchanges ev = 1) ∧
      (∀ c, i = .endTransfer c → exchanges ev ≤
        3 + s.cfg.busyAttempts + 23 + s.cfg.postIdleClocks)

/-- 44_transfer R217 ("derived: from rules R195, R196, R200"): a failed or aborted transfer does not
touch the session, and leaves no transfer and a released card, so that the next `BEGIN_TRANSFER` is
admitted at once. -/
def Obligations.FailedTransferKeepsTheSession : Prop :=
  ∀ (i : Instr) (s t : State) (r : Response), s.Inv → exec i s = .next t → t.response = some r →
    (i = .startSubBlock ∨ (∃ d g a, i = .beginTransfer d g a) ∨ (∃ a, i = .readBlock a) ∨
      (∃ a b, i = .writeBlock a b)) →
    (r.status = .cmdNoResponse ∨ r.status = .cmdRejected ∨ r.status = .tokenTimeout) →
      t.active = true ∧ t.resetAck = s.resetAck ∧ t.initAck = s.initAck ∧
      t.blkLenOk = s.blkLenOk ∧ t.cid = s.cid ∧ t.csd = s.csd ∧ t.xfer = none ∧ t.cs = false ∧
      ∀ d g a, refusalOf (.beginTransfer d g a) t = none

/-! ## Whole-machine rules -/

/-- 10_state R39 ("derived: from the rules of files 40 to 44"): an element is written by no
operation that the table of writers does not list; with the table's restrictions, and the
configuration and the ports never written. -/
def Obligations.OnlyListedWritersWrite : Prop :=
  ∀ (i : Instr) (s t : State), exec i s = .next t →
    (.session ∉ writersTable i → t.resetAck = s.resetAck ∧ t.initAck = s.initAck ∧
      t.blkLenOk = s.blkLenOk ∧ t.active = s.active ∧ t.cid = s.cid ∧ t.csd = s.csd) ∧
    (.xfer ∉ writersTable i → t.xfer = s.xfer) ∧ (.cs ∉ writersTable i → t.cs = s.cs) ∧
    (.lastR1 ∉ writersTable i → t.lastR1 = s.lastR1) ∧
    (.lastCrc16 ∉ writersTable i → t.lastCrc16 = s.lastCrc16) ∧
    (.lastDataResp ∉ writersTable i → t.lastDataResp = s.lastDataResp) ∧
    (i = .startSubBlock → t.cs ≠ s.cs → t.xfer = none) ∧
    (∀ c, i = .stopSubBlock c → t.lastDataResp ≠ s.lastDataResp →
      ∃ x, s.xfer = some x ∧ x.dir = .write) ∧
    (∀ c, i = .endTransfer c → t.lastCrc16 ≠ s.lastCrc16 → ∃ x, s.xfer = some x ∧ x.gran = .single) ∧
    (∀ c, i = .endTransfer c → t.lastDataResp ≠ s.lastDataResp →
      ∃ x, s.xfer = some x ∧ x.gran = .single ∧ x.dir = .write) ∧
    t.cfg = s.cfg ∧ t.hostPort = s.hostPort ∧ t.microPort = s.microPort

/-- 10_state R38 with R25 (both the spec's derivations) and 20_memory R62 hold at reset. -/
def Obligations.InvariantsHoldAtReset : Prop :=
  State.reset.Inv ∧ State.reset.BusDiscipline

/-- 10_state R38 with R25 (both the spec's derivations): the invariants between operations are kept
by every step. -/
def Obligations.StepKeepsTheInvariants : Prop :=
  ∀ s t : State, s.Inv → step s = .next t → t.Inv

/-- 20_memory R62, 10_state R34: every step, of either port, keeps the chip-select discipline of the
trace and the agreement of `S.cs` with it (the engine-side port is the model's, log 6, log 23). -/
def Obligations.StepKeepsTheBusDiscipline : Prop :=
  ∀ s t : State, s.Inv → s.BusDiscipline → step s = .next t → t.BusDiscipline

/-- 20_memory R58, R61: every step only appends to the trace; R64: the configuration never changes.
-/
def Obligations.StepOnlyAppendsToTheTrace : Prop :=
  ∀ s t : State, step s = .next t → (∃ ev, t.bus.trace = s.bus.trace ++ ev) ∧ t.cfg = s.cfg
end

