-- ==== Sys2Proof/Laws/Bus.lean ====
section
/-! SUPPORT. What each bus operation can do, said once: the events it appends and what it answers,
whatever the card does. -/

namespace Sys2Proof.Machine

namespace Bus

@[simp] theorem log_trace (e : BusEvent) (b : Bus) : (b.log e).trace = b.trace ++ [e] := rfl
@[simp] theorem log_card (e : BusEvent) (b : Bus) : (b.log e).card = b.card := rfl
@[simp] theorem delay_trace (ms : Nat) (b : Bus) : (b.delay ms).trace = b.trace ++ [.dly ms] := rfl
@[simp] theorem delay_card (ms : Nat) (b : Bus) : (b.delay ms).card = b.card := rfl

@[simp] theorem xchg_snd (o : Byte) (b : Bus) : (b.xchg o).2 = b.send o := rfl

@[simp] theorem send_trace (o : Byte) (b : Bus) :
    (b.send o).trace = b.trace ++ [.xchg o (b.xchg o).1] := rfl

@[simp] theorem sendAll_nil (b : Bus) : b.sendAll [] = b := rfl
@[simp] theorem sendAll_cons (o : Byte) (os : List Byte) (b : Bus) :
    b.sendAll (o :: os) = (b.send o).sendAll os := rfl

theorem sendAll_append (xs ys : List Byte) (b : Bus) :
    b.sendAll (xs ++ ys) = (b.sendAll xs).sendAll ys := by
  simp [sendAll, List.foldl_append]

@[simp] theorem idle_zero (b : Bus) : b.idle 0 = b := rfl
theorem idle_succ (n : Nat) (b : Bus) : b.idle (n + 1) = (b.send idleByte).idle n := rfl

/-! A scripted card (20_memory R59). -/

@[simp] theorem xchg_script_cons (o i : Byte) (is : List Byte) (t : List BusEvent) :
    (xchg o ⟨t, .script (i :: is)⟩).1 = i := rfl
@[simp] theorem send_script_cons (o i : Byte) (is : List Byte) (t : List BusEvent) :
    send o ⟨t, .script (i :: is)⟩ = ⟨t ++ [.xchg o i], .script is⟩ := rfl
@[simp] theorem xchg_script_nil (o : Byte) (t : List BusEvent) :
    (xchg o ⟨t, .script []⟩).1 = 0xFF#8 := rfl
@[simp] theorem send_script_nil (o : Byte) (t : List BusEvent) :
    send o ⟨t, .script []⟩ = ⟨t ++ [.xchg o 0xFF#8], .script []⟩ := rfl

/-! The events each operation appends. -/

/-- Sending bytes appends one exchange for each, in order. -/
theorem sendAll_spec (os : List Byte) (b : Bus) :
    ∃ got : List Byte, got.length = os.length ∧
      (b.sendAll os).trace = b.trace ++ List.zipWith BusEvent.xchg os got := by
  induction os generalizing b with
  | nil => exact ⟨[], rfl, by simp⟩
  | cons o os ih =>
    obtain ⟨got, hl, ht⟩ := ih (b.send o)
    exact ⟨(b.xchg o).1 :: got, by simp [hl], by simp [ht]⟩

/-- `Idle(n)` appends `n` exchanges of the idle byte (00_scope R14). -/
theorem idle_spec (n : Nat) (b : Bus) :
    ∃ ev, IdleEvents n ev ∧ (b.idle n).trace = b.trace ++ ev := by
  induction n generalizing b with
  | zero => exact ⟨[], ⟨[], rfl, rfl⟩, by simp⟩
  | succ n ih =>
    obtain ⟨_, ⟨got, hl, rfl⟩, ht⟩ := ih (b.send idleByte)
    exact ⟨_, ⟨(b.xchg idleByte).1 :: got, by simp [hl], rfl⟩, by simp [idle_succ, ht]⟩

/-- Receiving `n` bytes yields `n` bytes. -/
@[simp] theorem recv_length (n : Nat) (b : Bus) : (b.recv n).1.length = n := by
  induction n generalizing b with
  | zero => rfl
  | succ n ih => simp [recv, ih]

/-- Receiving is idle clocking with the bytes kept: the bus ends as after `Idle(n)`. -/
@[simp] theorem recv_snd (n : Nat) (b : Bus) : (b.recv n).2 = b.idle n := by
  induction n generalizing b with
  | zero => rfl
  | succ n ih => simp [recv, idle_succ, ih]

/-- The events of a receive are the bytes received, in order (20_memory R65). -/
theorem recv_trace (n : Nat) (b : Bus) :
    (b.idle n).trace = b.trace ++ (b.recv n).1.map (BusEvent.xchg idleByte) := by
  induction n generalizing b with
  | zero => simp [recv]
  | succ n ih => simp [recv, idle_succ, ih]

/-- One more received byte at the end. -/
theorem recv_succ_last (n : Nat) (b : Bus) :
    (b.recv (n + 1)).1 = (b.recv n).1 ++ [((b.idle n).xchg idleByte).1] := by
  induction n generalizing b with
  | zero => rfl
  | succ n ih =>
    rw [show (b.recv (n + 1 + 1)).1 = (b.xchg idleByte).1 :: ((b.send idleByte).recv (n + 1)).1 from
      rfl, ih]
    rfl

/-- One more idle byte at the end. -/
theorem idle_succ_last (n : Nat) (b : Bus) : b.idle (n + 1) = (b.idle n).send idleByte := by
  induction n generalizing b with
  | zero => rfl
  | succ n ih => rw [idle_succ, ih]; rfl

/-- A register is received as the same bytes in the same order (10_state R27, 43 R175). -/
theorem recvReg_spec (n : Nat) (b : Bus) :
    (b.recvReg n).1.toList = (b.recv n).1 ∧ (b.recvReg n).2 = b.idle n := by
  induction n with
  | zero => exact ⟨rfl, rfl⟩
  | succ n ih =>
    obtain ⟨h1, h2⟩ := ih
    constructor
    · rw [recv_succ_last, ← h1, ← h2]
      exact Vector.toList_push
    · rw [idle_succ_last, ← h2]
      rfl

@[simp] theorem recvReg_snd (n : Nat) (b : Bus) : (b.recvReg n).2 = b.idle n :=
  (recvReg_spec n b).2

/-- The response poll (41 R122 to R124): polls that received 0xFF, then the first other byte; or no
response after `n` polls. -/
theorem poll_spec (n : Nat) (b : Bus) :
    ∃ idles : Nat,
      ((b.poll n).1 = idleByte ∧ idles = n ∧
        (b.poll n).2.trace = b.trace ++ List.replicate idles (.xchg idleByte idleByte)) ∨
      ((b.poll n).1 ≠ idleByte ∧ idles < n ∧
        (b.poll n).2.trace = b.trace ++ List.replicate idles (.xchg idleByte idleByte) ++
          [.xchg idleByte (b.poll n).1]) := by
  induction n generalizing b with
  | zero => exact ⟨0, .inl ⟨rfl, rfl, by simp [poll]⟩⟩
  | succ n ih =>
    by_cases hx : (b.xchg idleByte).1 = idleByte
    · have hp : b.poll (n + 1) = (b.send idleByte).poll n := by simp [poll, hx]
      obtain ⟨k, ⟨hr, hk, ht⟩ | ⟨hr, hk, ht⟩⟩ := ih (b.send idleByte)
      · exact ⟨k + 1, .inl ⟨by rw [hp, hr], by rw [hk],
          by rw [hp, ht]; simp [hx, List.replicate_succ]⟩⟩
      · exact ⟨k + 1, .inr ⟨by rw [hp]; exact hr, by omega,
          by rw [hp, ht]; simp [hx, List.replicate_succ]⟩⟩
    · have hp : b.poll (n + 1) = b.xchg idleByte := by simp [poll, hx]
      exact ⟨0, .inr ⟨by rw [hp]; exact hx, by omega, by rw [hp]; simp⟩⟩

theorem frame_length (idx : CmdIndex) (arg : Arg) : (frame idx arg).length = 6 := rfl

/-- `SendCommand` on the bus: the events `CommandEvents` describes, whatever the card answers
(41 R122). -/
theorem command_spec (idx : CmdIndex) (arg : Arg) (b : Bus) :
    ∃ ev, CommandEvents idx arg (b.command idx arg).1 ev ∧
      (b.command idx arg).2.trace = b.trace ++ ev := by
  obtain ⟨got, hl, ht⟩ := sendAll_spec (frame idx arg) (b.send idleByte)
  obtain ⟨k, h⟩ := poll_spec respPollMax ((b.send idleByte).sendAll (frame idx arg))
  have hc : b.command idx arg = ((b.send idleByte).sendAll (frame idx arg)).poll respPollMax := rfl
  rw [← hc] at h
  rw [frame_length] at hl
  obtain ⟨hr, hk, h⟩ | ⟨hr, hk, h⟩ := h
  · exact ⟨_, ⟨(b.xchg idleByte).1 :: got, k, by simp [hl], .inl ⟨hr, hk, rfl⟩⟩,
      by rw [h, ht]; simp⟩
  · exact ⟨_, ⟨(b.xchg idleByte).1 :: got, k, by simp [hl], .inr ⟨hr, hk, rfl⟩⟩,
      by rw [h, ht]; simp⟩

/-- `WaitToken` on the bus: the events `TokenEvents` describes (44_transfer R193). -/
theorem waitToken_spec (ms n : Nat) (b : Bus) :
    ∃ ev, TokenEvents ms n (b.waitToken ms n).1 ev ∧
      (b.waitToken ms n).2.trace = b.trace ++ ev := by
  induction n generalizing b with
  | zero => exact ⟨[], ⟨[], by simp, .inr ⟨rfl, rfl, rfl⟩⟩, by simp [waitToken]⟩
  | succ n ih =>
    by_cases hx : (b.xchg idleByte).1 = tokenStart
    · have hw : b.waitToken ms (n + 1) = (true, b.send idleByte) := by simp [waitToken, hx]
      exact ⟨_, ⟨[], by simp, .inl ⟨by rw [hw], by simp, rfl⟩⟩, by rw [hw]; simp [hx]⟩
    · have hw : b.waitToken ms (n + 1) = ((b.send idleByte).delay ms).waitToken ms n := by
        simp [waitToken, hx]
      obtain ⟨ev, ⟨missed, hm, h⟩, ht⟩ := ih ((b.send idleByte).delay ms)
      rw [← hw] at h ht
      refine ⟨[.xchg idleByte (b.xchg idleByte).1, .dly ms] ++ ev,
        ⟨(b.xchg idleByte).1 :: missed, by simpa [hx] using hm, ?_⟩, by rw [ht]; simp⟩
      obtain ⟨hf, hl, rfl⟩ | ⟨hf, hl, rfl⟩ := h
      · exact .inl ⟨hf, by simpa using hl, by simp⟩
      · exact .inr ⟨hf, by simpa using hl, by simp⟩

/-- `WaitBusy` on the bus: the events `BusyEvents` describes (44_transfer R194). -/
theorem waitBusy_spec (ms n : Nat) (b : Bus) :
    ∃ ev, BusyEvents ms n ev ∧ (b.waitBusy ms n).trace = b.trace ++ ev := by
  induction n generalizing b with
  | zero => exact ⟨[], ⟨0, .inl ⟨rfl, rfl⟩⟩, by simp [waitBusy]⟩
  | succ n ih =>
    by_cases hx : (b.xchg idleByte).1 = 0x00#8
    · have hw : b.waitBusy ms (n + 1) = ((b.send idleByte).delay ms).waitBusy ms n := by
        simp [waitBusy, hx]
      obtain ⟨ev, ⟨k, h⟩, ht⟩ := ih ((b.send idleByte).delay ms)
      refine ⟨[.xchg idleByte 0x00, .dly ms] ++ ev, ⟨k + 1, ?_⟩, by rw [hw, ht]; simp [hx]⟩
      obtain ⟨hk, rfl⟩ | ⟨hk, x, hx', rfl⟩ := h
      · exact .inl ⟨by rw [hk], by simp [List.replicate_succ]⟩
      · exact .inr ⟨by omega, x, hx', by simp [List.replicate_succ]⟩
    · have hw : b.waitBusy ms (n + 1) = b.send idleByte := by simp [waitBusy, hx]
      exact ⟨_, ⟨0, .inr ⟨by omega, _, hx, rfl⟩⟩, by rw [hw]; simp⟩

end Bus

end Sys2Proof.Machine
end

