-- ==== Sys2Proof/Laws/Decode.lean ====
section
/-! SUPPORT. The decoder and the encoder piece by piece: each operand form is read back as it was
written, a frame is read as the row of its index and argument, and a frame row's word and meaning are
those of its frame. -/

namespace Sys2Proof

open Sys2Proof.Machine

/-! Operand forms. -/

/-- A 32-bit argument is its four bytes, most significant first (20_memory R54). -/
@[simp] theorem joinArg_bytes (a : Arg) :
    joinArg (a.extractLsb' 24 8) (a.extractLsb' 16 8) (a.extractLsb' 8 8) (a.extractLsb' 0 8) = a := by
  apply BitVec.eq_of_getLsbD_eq
  intro i hi
  show (BitVec.extractLsb' 24 8 a ++ BitVec.extractLsb' 16 8 a ++ BitVec.extractLsb' 8 8 a ++
    BitVec.extractLsb' 0 8 a : BitVec (8 + 8 + 8 + 8)).getLsbD i = _
  rw [BitVec.getLsbD_append, BitVec.getLsbD_append, BitVec.getLsbD_append]
  simp only [BitVec.getLsbD_extractLsb']
  by_cases h0 : i < 8
  · simp [h0]
  by_cases h1 : i < 16
  · simp [h0, show i - 8 < 8 by omega, show 8 + (i - 8) = i by omega]
  by_cases h2 : i < 24
  · simp [h0, show ¬ (i - 8 < 8) by omega, show i - 8 - 8 < 8 by omega,
      show 16 + (i - 8 - 8) = i by omega]
  · simp [h0, show ¬ (i - 8 < 8) by omega, show ¬ (i - 8 - 8 < 8) by omega,
      show 24 + (i - 8 - 8 - 8) = i by omega]
    intro _
    omega

/-- A 16-bit trailer is its two bytes, high byte first (20_memory R55). -/
@[simp] theorem joinTrailer_bytes (w : Half) : joinTrailer (hiByte w) (loByte w) = w := by
  unfold joinTrailer hiByte loByte
  apply BitVec.eq_of_getLsbD_eq
  intro i hi
  by_cases h : i < 8
  · simp [h]
    intro _
    omega
  · simp [h, hi, show 8 + (i - 8) = i by omega, show i - 8 < 8 by omega]

/-- The trailer as an appended pair. -/
theorem joinTrailer_append (hi lo : Byte) : joinTrailer hi lo = hi ++ lo := by
  apply BitVec.eq_of_getLsbD_eq
  intro i h
  rw [BitVec.getLsbD_append]
  unfold joinTrailer
  by_cases h8 : i < 8
  · simp [h8]
    intro _
    omega
  · simp [h8, h]
    intro h'
    have := BitVec.lt_of_getLsbD h'
    omega

@[simp] theorem takeArg_argBytes (a : Arg) (rest : List Byte) :
    takeArg (argBytes a ++ rest) = .ok (a, rest) := by
  simp [argBytes, takeArg]

@[simp] theorem takeHalf_halfBytes (w : Half) (rest : List Byte) :
    takeHalf (halfBytes w ++ rest) = .ok (w, rest) := by
  simp [halfBytes, takeHalf]

theorem takeBytes_append (bs rest : List Byte) :
    takeBytes bs.length (bs ++ rest) = .ok (bs, rest) := by
  induction bs with
  | nil => rfl
  | cons b bs ih => simp [takeBytes, ih, andThen]

@[simp] theorem takeSeq_seqBytes (bs rest : List Byte) :
    takeSeq (seqBytes bs ++ rest) = .ok (bs, rest) := by
  induction bs with
  | nil => cases rest <;> simp [seqBytes, takeSeq]
  | cons b bs ih => simp [seqBytes, takeSeq, ih, andThen]

/-- A result read on from comes from a result. -/
theorem andThen_ok {α β : Type} {p : Parsed α} {f : α → List Byte → Parsed β} {r : β × List Byte}
    (h : andThen p f = .ok r) : ∃ a rest, p = .ok (a, rest) ∧ f a rest = .ok r := by
  cases p with
  | error e => simp [andThen] at h
  | ok q => exact ⟨q.1, q.2, rfl, h⟩

/-- Reading `n` bytes gives `n` bytes. -/
theorem takeBytes_length {n : Nat} {bs got rest : List Byte}
    (h : takeBytes n bs = .ok (got, rest)) : got.length = n := by
  induction n generalizing bs got rest with
  | zero => simp [takeBytes] at h; simp [h.1]
  | succ n ih =>
    cases bs with
    | nil => simp [takeBytes] at h
    | cons b bs =>
      obtain ⟨g, r, h1, h2⟩ := andThen_ok h
      simp at h2
      simp [← h2.1, ih h1]

/-! First bytes. -/

/-- `decode` on at least one byte. -/
theorem decode_cons (cfg : Cfg) (b : Byte) (bs : List Byte) :
    decode cfg (b :: bs) =
      if b.extractLsb' 4 4 = 0 then decodeHostOp b.toNat bs
      else if b.extractLsb' 6 2 = 1 then decodeFrame cfg b bs
      else if b = tokenStart then .ok (.tokenStartSingle, bs)
      else if b = tokenMultiStart then .ok (.tokenStartMultiWrite, bs)
      else if b = tokenMultiStop then .ok (.tokenStopMultiWrite, bs)
      else if b = idleByte then .ok (.byteIdle, bs)
      else .error (.reservedByte b) := rfl

/-- A host operation's first byte is below 0x10 (30_encoding R82). -/
theorem high_nibble_zero (b : Byte) : b.extractLsb' 4 4 = 0 ↔ b.toNat < 16 := by
  revert b; decide +kernel

/-- The first byte of a frame (30_encoding R70, R71). -/
theorem frame_first_byte (idx : CmdIndex) :
    (0x40#8 ||| idx.setWidth 8).extractLsb' 0 6 = idx ∧
    (0x40#8 ||| idx.setWidth 8).extractLsb' 6 2 = 1 ∧
    (0x40#8 ||| idx.setWidth 8).extractLsb' 4 4 ≠ 0 ∧
    (0x40#8 ||| idx.setWidth 8).toNat = 64 + idx.toNat := by
  revert idx; decide +kernel

/-- A finished CRC7 ends with the stop bit and holds the raw register above it (40_crc R104). -/
theorem crc7Finish_bits (r : BitVec 7) :
    (crc7Finish r).getLsbD 0 = true ∧ (crc7Finish r).extractLsb' 1 7 = r ∧
      (crc7Finish r).toNat = 2 * r.toNat + 1 := by
  revert r; decide +kernel

/-! Frames. -/

theorem addressRow_frameOf (cfg : Cfg) (idx : CmdIndex) (arg : Arg) :
    frameOf cfg (addressRow cfg idx arg) = some (idx, arg) := by
  unfold addressRow
  repeat' split
  all_goals simp_all [frameOf]

/-- The row a frame is read as has that frame. -/
@[simp] theorem classify_frameOf (cfg : Cfg) (idx : CmdIndex) (arg : Arg) :
    frameOf cfg (classify cfg idx arg) = some (idx, arg) := by
  unfold classify
  cases h : fixedRow cfg idx arg with
  | none => exact addressRow_frameOf _ _ _
  | some i =>
    have := List.find?_some h
    simpa using this

/-- A row with a frame is no host operation, and is well-formed. -/
theorem frameOf_some {cfg : Cfg} {i : Instr} {p : CmdIndex × Arg} (h : frameOf cfg i = some p) :
    i.isHostOp = false ∧ i.wf = true := by
  cases i <;> simp_all [Instr.isHostOp, Instr.wf, frameOf]

/-- A row with a frame is encoded as that frame. -/
theorem encode_of_frameOf {cfg : Cfg} {i : Instr} {idx : CmdIndex} {arg : Arg}
    (h : frameOf cfg i = some (idx, arg)) : encode cfg i = frame idx arg := by
  cases i <;> simp [frameOf] at h <;> (obtain ⟨rfl, rfl⟩ := h; rfl)

/-- The frame of a row other than the generic one is in the map of 30_encoding R81. -/
theorem isEmitted_of_row {cfg : Cfg} {i : Instr} {idx : CmdIndex} {arg : Arg}
    (h : frameOf cfg i = some (idx, arg)) (hi : ∀ x a, i ≠ .frame x a) :
    isEmitted cfg idx arg = true := by
  cases i <;> simp_all [frameOf, isEmitted, fixedRows]

/-- The map of 30_encoding R81 holds the frames that are read as a row other than the generic one. -/
theorem isEmitted_iff_classify (cfg : Cfg) (idx : CmdIndex) (arg : Arg) :
    isEmitted cfg idx arg = true ↔ classify cfg idx arg ≠ .frame idx arg := by
  constructor
  · intro h hc
    unfold classify fixedRow at hc
    cases hf : fixedRows.find? (fun i => frameOf cfg i == some (idx, arg)) with
    | some i =>
      rw [hf] at hc
      have hm := List.mem_of_find?_eq_some hf
      simp only [Option.getD_some] at hc
      simp [fixedRows, hc] at hm
    | none =>
      rw [hf] at hc
      have hn : fixedRows.any (fun i => frameOf cfg i == some (idx, arg)) = false := by
        simpa using hf
      simp only [isEmitted, hn, Bool.false_or, List.any_cons, List.any_nil, Bool.or_false,
        Bool.or_eq_true, beq_iff_eq] at h
      simp only [Option.getD_none, addressRow] at hc
      rcases h with h | h | h | h <;> subst h <;> simp at hc
      all_goals (split at hc <;> try contradiction)
      all_goals (split at hc <;> try contradiction)
      all_goals (split at hc <;> contradiction)
  · intro h
    refine isEmitted_of_row (classify_frameOf cfg idx arg) fun x a hx => h ?_
    have := classify_frameOf cfg idx arg
    rw [hx] at this ⊢
    simp only [frameOf, Option.some.injEq, Prod.mk.injEq] at this
    rw [this.1, this.2]

/-- A row with a frame needs an asserted chip-select. -/
theorem needsSelect_of_frameOf {cfg : Cfg} {i : Instr} {p : CmdIndex × Arg}
    (h : frameOf cfg i = some p) : needsSelect i = true := by
  cases i <;> simp_all [needsSelect, frameOf]

/-- What a piece of the engine's work can do: run while the card is selected, or be refused. -/
@[simp] theorem whileSelected_next {s t : State} {f : State → State} :
    s.whileSelected f = .next t ↔ s.cs = true ∧ f s = t := by
  unfold State.whileSelected
  split <;> simp_all

theorem whileSelected_true {s : State} {f : State → State} (h : s.cs = true) :
    s.whileSelected f = .next (f s) := if_pos h

theorem whileSelected_false {s : State} {f : State → State} (h : s.cs = false) :
    s.whileSelected f = .refused .cardReleased := by
  simp [State.whileSelected, h]

/-- A row whose frame the engine emits runs as `SendCommand` of it while the card is selected
(41 R122, R125 to R138). -/
theorem exec_frameOf {s : State} {i : Instr} {idx : CmdIndex} {arg : Arg}
    (h : frameOf s.cfg i = some (idx, arg)) (he : isEmitted s.cfg idx arg = true) :
    exec i s = s.whileSelected (State.command idx arg) := by
  cases i <;> simp only [frameOf, reduceCtorEq, Option.some.injEq, Prod.mk.injEq] at h <;>
    obtain ⟨rfl, rfl⟩ := h
  case frame => exact if_pos he
  all_goals rfl

theorem exec_of_frameOf {s : State} {i : Instr} {idx : CmdIndex} {arg : Arg}
    (h : frameOf s.cfg i = some (idx, arg)) (he : isEmitted s.cfg idx arg = true)
    (hs : s.cs = true) : exec i s = .next (s.command idx arg) := by
  rw [exec_frameOf h he, whileSelected_true hs]

/-- `FRAME` of a frame the engine never emits (30_encoding R81, R88). -/
theorem exec_frame_not_emitted {s : State} {idx : CmdIndex} {arg : Arg}
    (h : isEmitted s.cfg idx arg = false) :
    exec (.frame idx arg) s = .refused (.frameNotEmitted idx arg) := by
  show execFrame idx arg s = _
  simp [execFrame, h]

/-- An instruction with a next state sends, if it is a frame, one that the engine emits. -/
theorem isEmitted_of_next {s t : State} {i : Instr} {idx : CmdIndex} {arg : Arg}
    (hn : exec i s = .next t) (h : frameOf s.cfg i = some (idx, arg)) :
    isEmitted s.cfg idx arg = true := by
  cases he : isEmitted s.cfg idx arg with
  | true => rfl
  | false =>
    refine (Bool.false_ne_true (he.symm.trans (isEmitted_of_row h fun x a hx => ?_))).elim
    subst hx
    simp only [frameOf, Option.some.injEq, Prod.mk.injEq] at h
    obtain ⟨rfl, rfl⟩ := h
    rw [exec_frame_not_emitted he] at hn
    cases hn

/-- A frame or a start token with a next state ran while the card was selected (20_memory R62). -/
theorem cs_of_next {s t : State} {i : Instr} (hn : exec i s = .next t)
    (h : needsSelect i = true) : s.cs = true := by
  cases hf : frameOf s.cfg i with
  | some p =>
    rw [exec_frameOf hf (isEmitted_of_next hn hf)] at hn
    exact (whileSelected_next.1 hn).1
  | none =>
    cases i <;> simp [needsSelect] at h <;> simp [frameOf] at hf
    case tokenStartSingle => exact (whileSelected_next.1 hn).1
    case tokenStartMultiWrite => exact (whileSelected_next.1 hn).1

/-- A frame is read as the row of its index and argument, whatever follows it. -/
theorem decode_frame (cfg : Cfg) (idx : CmdIndex) (arg : Arg) (rest : List Byte) :
    decode cfg (frame idx arg ++ rest) = .ok (classify cfg idx arg, rest) := by
  obtain ⟨h1, h2, h3, -⟩ := frame_first_byte idx
  have hf : frame idx arg ++ rest =
      (0x40#8 ||| idx.setWidth 8) :: (argBytes arg ++ (crc7 0 (frameHead idx arg) :: rest)) := by
    simp [frame, frameHead]
  have hs : (crc7 0 (frameHead idx arg)).getLsbD 0 = true := (crc7Finish_bits _).1
  rw [hf, decode_cons, if_neg h3, if_pos h2]
  unfold decodeFrame
  simp only [takeArg_argBytes, andThen, takeByte, h1, hs, if_true]

end Sys2Proof
end

