-- ==== Sys2Proof/Laws/State.lean ====
section
/-! SUPPORT. One lemma for each field of the state under each named update and micro-sequence, so that
no proof unfolds a record update. -/

namespace Sys2Proof.Machine.State

@[simp] theorem clearSession_resetAck (s : State) : (s.clearSession).resetAck = false := rfl
@[simp] theorem clearSession_initAck (s : State) : (s.clearSession).initAck = false := rfl
@[simp] theorem clearSession_blkLenOk (s : State) : (s.clearSession).blkLenOk = false := rfl
@[simp] theorem clearSession_active (s : State) : (s.clearSession).active = false := rfl
@[simp] theorem clearSession_cid (s : State) : (s.clearSession).cid = Reg16.zero := rfl
@[simp] theorem clearSession_csd (s : State) : (s.clearSession).csd = Reg16.zero := rfl
@[simp] theorem clearSession_xfer (s : State) : (s.clearSession).xfer = s.xfer := rfl
@[simp] theorem clearSession_cs (s : State) : (s.clearSession).cs = s.cs := rfl
@[simp] theorem clearSession_lastR1 (s : State) : (s.clearSession).lastR1 = s.lastR1 := rfl
@[simp] theorem clearSession_lastCrc16 (s : State) : (s.clearSession).lastCrc16 = s.lastCrc16 := rfl
@[simp] theorem clearSession_lastDataResp (s : State) :
    (s.clearSession).lastDataResp = s.lastDataResp :=
  rfl
@[simp] theorem clearSession_bus (s : State) : (s.clearSession).bus = s.bus := rfl
@[simp] theorem clearSession_cfg (s : State) : (s.clearSession).cfg = s.cfg := rfl
@[simp] theorem clearSession_hostPort (s : State) : (s.clearSession).hostPort = s.hostPort := rfl
@[simp] theorem clearSession_microPort (s : State) : (s.clearSession).microPort = s.microPort := rfl
@[simp] theorem clearSession_response (s : State) : (s.clearSession).response = s.response := rfl

@[simp] theorem setResetAck_resetAck (s : State) : (s.setResetAck).resetAck = true := rfl
@[simp] theorem setResetAck_initAck (s : State) : (s.setResetAck).initAck = s.initAck := rfl
@[simp] theorem setResetAck_blkLenOk (s : State) : (s.setResetAck).blkLenOk = s.blkLenOk := rfl
@[simp] theorem setResetAck_active (s : State) : (s.setResetAck).active = s.active := rfl
@[simp] theorem setResetAck_cid (s : State) : (s.setResetAck).cid = s.cid := rfl
@[simp] theorem setResetAck_csd (s : State) : (s.setResetAck).csd = s.csd := rfl
@[simp] theorem setResetAck_xfer (s : State) : (s.setResetAck).xfer = s.xfer := rfl
@[simp] theorem setResetAck_cs (s : State) : (s.setResetAck).cs = s.cs := rfl
@[simp] theorem setResetAck_lastR1 (s : State) : (s.setResetAck).lastR1 = s.lastR1 := rfl
@[simp] theorem setResetAck_lastCrc16 (s : State) : (s.setResetAck).lastCrc16 = s.lastCrc16 := rfl
@[simp] theorem setResetAck_lastDataResp (s : State) :
    (s.setResetAck).lastDataResp = s.lastDataResp :=
  rfl
@[simp] theorem setResetAck_bus (s : State) : (s.setResetAck).bus = s.bus := rfl
@[simp] theorem setResetAck_cfg (s : State) : (s.setResetAck).cfg = s.cfg := rfl
@[simp] theorem setResetAck_hostPort (s : State) : (s.setResetAck).hostPort = s.hostPort := rfl
@[simp] theorem setResetAck_microPort (s : State) : (s.setResetAck).microPort = s.microPort := rfl
@[simp] theorem setResetAck_response (s : State) : (s.setResetAck).response = s.response := rfl

@[simp] theorem setInitAck_resetAck (s : State) : (s.setInitAck).resetAck = s.resetAck := rfl
@[simp] theorem setInitAck_initAck (s : State) : (s.setInitAck).initAck = true := rfl
@[simp] theorem setInitAck_blkLenOk (s : State) : (s.setInitAck).blkLenOk = s.blkLenOk := rfl
@[simp] theorem setInitAck_active (s : State) : (s.setInitAck).active = s.active := rfl
@[simp] theorem setInitAck_cid (s : State) : (s.setInitAck).cid = s.cid := rfl
@[simp] theorem setInitAck_csd (s : State) : (s.setInitAck).csd = s.csd := rfl
@[simp] theorem setInitAck_xfer (s : State) : (s.setInitAck).xfer = s.xfer := rfl
@[simp] theorem setInitAck_cs (s : State) : (s.setInitAck).cs = s.cs := rfl
@[simp] theorem setInitAck_lastR1 (s : State) : (s.setInitAck).lastR1 = s.lastR1 := rfl
@[simp] theorem setInitAck_lastCrc16 (s : State) : (s.setInitAck).lastCrc16 = s.lastCrc16 := rfl
@[simp] theorem setInitAck_lastDataResp (s : State) :
    (s.setInitAck).lastDataResp = s.lastDataResp :=
  rfl
@[simp] theorem setInitAck_bus (s : State) : (s.setInitAck).bus = s.bus := rfl
@[simp] theorem setInitAck_cfg (s : State) : (s.setInitAck).cfg = s.cfg := rfl
@[simp] theorem setInitAck_hostPort (s : State) : (s.setInitAck).hostPort = s.hostPort := rfl
@[simp] theorem setInitAck_microPort (s : State) : (s.setInitAck).microPort = s.microPort := rfl
@[simp] theorem setInitAck_response (s : State) : (s.setInitAck).response = s.response := rfl

@[simp] theorem setBlkLenOk_resetAck (s : State) : (s.setBlkLenOk).resetAck = s.resetAck := rfl
@[simp] theorem setBlkLenOk_initAck (s : State) : (s.setBlkLenOk).initAck = s.initAck := rfl
@[simp] theorem setBlkLenOk_blkLenOk (s : State) : (s.setBlkLenOk).blkLenOk = true := rfl
@[simp] theorem setBlkLenOk_active (s : State) : (s.setBlkLenOk).active = s.active := rfl
@[simp] theorem setBlkLenOk_cid (s : State) : (s.setBlkLenOk).cid = s.cid := rfl
@[simp] theorem setBlkLenOk_csd (s : State) : (s.setBlkLenOk).csd = s.csd := rfl
@[simp] theorem setBlkLenOk_xfer (s : State) : (s.setBlkLenOk).xfer = s.xfer := rfl
@[simp] theorem setBlkLenOk_cs (s : State) : (s.setBlkLenOk).cs = s.cs := rfl
@[simp] theorem setBlkLenOk_lastR1 (s : State) : (s.setBlkLenOk).lastR1 = s.lastR1 := rfl
@[simp] theorem setBlkLenOk_lastCrc16 (s : State) : (s.setBlkLenOk).lastCrc16 = s.lastCrc16 := rfl
@[simp] theorem setBlkLenOk_lastDataResp (s : State) :
    (s.setBlkLenOk).lastDataResp = s.lastDataResp :=
  rfl
@[simp] theorem setBlkLenOk_bus (s : State) : (s.setBlkLenOk).bus = s.bus := rfl
@[simp] theorem setBlkLenOk_cfg (s : State) : (s.setBlkLenOk).cfg = s.cfg := rfl
@[simp] theorem setBlkLenOk_hostPort (s : State) : (s.setBlkLenOk).hostPort = s.hostPort := rfl
@[simp] theorem setBlkLenOk_microPort (s : State) : (s.setBlkLenOk).microPort = s.microPort := rfl
@[simp] theorem setBlkLenOk_response (s : State) : (s.setBlkLenOk).response = s.response := rfl

@[simp] theorem setActive_resetAck (s : State) : (s.setActive).resetAck = s.resetAck := rfl
@[simp] theorem setActive_initAck (s : State) : (s.setActive).initAck = s.initAck := rfl
@[simp] theorem setActive_blkLenOk (s : State) : (s.setActive).blkLenOk = s.blkLenOk := rfl
@[simp] theorem setActive_active (s : State) : (s.setActive).active = true := rfl
@[simp] theorem setActive_cid (s : State) : (s.setActive).cid = s.cid := rfl
@[simp] theorem setActive_csd (s : State) : (s.setActive).csd = s.csd := rfl
@[simp] theorem setActive_xfer (s : State) : (s.setActive).xfer = s.xfer := rfl
@[simp] theorem setActive_cs (s : State) : (s.setActive).cs = s.cs := rfl
@[simp] theorem setActive_lastR1 (s : State) : (s.setActive).lastR1 = s.lastR1 := rfl
@[simp] theorem setActive_lastCrc16 (s : State) : (s.setActive).lastCrc16 = s.lastCrc16 := rfl
@[simp] theorem setActive_lastDataResp (s : State) :
    (s.setActive).lastDataResp = s.lastDataResp :=
  rfl
@[simp] theorem setActive_bus (s : State) : (s.setActive).bus = s.bus := rfl
@[simp] theorem setActive_cfg (s : State) : (s.setActive).cfg = s.cfg := rfl
@[simp] theorem setActive_hostPort (s : State) : (s.setActive).hostPort = s.hostPort := rfl
@[simp] theorem setActive_microPort (s : State) : (s.setActive).microPort = s.microPort := rfl
@[simp] theorem setActive_response (s : State) : (s.setActive).response = s.response := rfl

@[simp] theorem setCid_resetAck (s : State) (v : Reg16) : (s.setCid v).resetAck = s.resetAck := rfl
@[simp] theorem setCid_initAck (s : State) (v : Reg16) : (s.setCid v).initAck = s.initAck := rfl
@[simp] theorem setCid_blkLenOk (s : State) (v : Reg16) : (s.setCid v).blkLenOk = s.blkLenOk := rfl
@[simp] theorem setCid_active (s : State) (v : Reg16) : (s.setCid v).active = s.active := rfl
@[simp] theorem setCid_cid (s : State) (v : Reg16) : (s.setCid v).cid = v := rfl
@[simp] theorem setCid_csd (s : State) (v : Reg16) : (s.setCid v).csd = s.csd := rfl
@[simp] theorem setCid_xfer (s : State) (v : Reg16) : (s.setCid v).xfer = s.xfer := rfl
@[simp] theorem setCid_cs (s : State) (v : Reg16) : (s.setCid v).cs = s.cs := rfl
@[simp] theorem setCid_lastR1 (s : State) (v : Reg16) : (s.setCid v).lastR1 = s.lastR1 := rfl
@[simp] theorem setCid_lastCrc16 (s : State) (v : Reg16) :
    (s.setCid v).lastCrc16 = s.lastCrc16 :=
  rfl
@[simp] theorem setCid_lastDataResp (s : State) (v : Reg16) :
    (s.setCid v).lastDataResp = s.lastDataResp :=
  rfl
@[simp] theorem setCid_bus (s : State) (v : Reg16) : (s.setCid v).bus = s.bus := rfl
@[simp] theorem setCid_cfg (s : State) (v : Reg16) : (s.setCid v).cfg = s.cfg := rfl
@[simp] theorem setCid_hostPort (s : State) (v : Reg16) : (s.setCid v).hostPort = s.hostPort := rfl
@[simp] theorem setCid_microPort (s : State) (v : Reg16) :
    (s.setCid v).microPort = s.microPort :=
  rfl
@[simp] theorem setCid_response (s : State) (v : Reg16) : (s.setCid v).response = s.response := rfl

@[simp] theorem setCsd_resetAck (s : State) (v : Reg16) : (s.setCsd v).resetAck = s.resetAck := rfl
@[simp] theorem setCsd_initAck (s : State) (v : Reg16) : (s.setCsd v).initAck = s.initAck := rfl
@[simp] theorem setCsd_blkLenOk (s : State) (v : Reg16) : (s.setCsd v).blkLenOk = s.blkLenOk := rfl
@[simp] theorem setCsd_active (s : State) (v : Reg16) : (s.setCsd v).active = s.active := rfl
@[simp] theorem setCsd_cid (s : State) (v : Reg16) : (s.setCsd v).cid = s.cid := rfl
@[simp] theorem setCsd_csd (s : State) (v : Reg16) : (s.setCsd v).csd = v := rfl
@[simp] theorem setCsd_xfer (s : State) (v : Reg16) : (s.setCsd v).xfer = s.xfer := rfl
@[simp] theorem setCsd_cs (s : State) (v : Reg16) : (s.setCsd v).cs = s.cs := rfl
@[simp] theorem setCsd_lastR1 (s : State) (v : Reg16) : (s.setCsd v).lastR1 = s.lastR1 := rfl
@[simp] theorem setCsd_lastCrc16 (s : State) (v : Reg16) :
    (s.setCsd v).lastCrc16 = s.lastCrc16 :=
  rfl
@[simp] theorem setCsd_lastDataResp (s : State) (v : Reg16) :
    (s.setCsd v).lastDataResp = s.lastDataResp :=
  rfl
@[simp] theorem setCsd_bus (s : State) (v : Reg16) : (s.setCsd v).bus = s.bus := rfl
@[simp] theorem setCsd_cfg (s : State) (v : Reg16) : (s.setCsd v).cfg = s.cfg := rfl
@[simp] theorem setCsd_hostPort (s : State) (v : Reg16) : (s.setCsd v).hostPort = s.hostPort := rfl
@[simp] theorem setCsd_microPort (s : State) (v : Reg16) :
    (s.setCsd v).microPort = s.microPort :=
  rfl
@[simp] theorem setCsd_response (s : State) (v : Reg16) : (s.setCsd v).response = s.response := rfl

@[simp] theorem setXfer_resetAck (s : State) (v : Option Xfer) :
    (s.setXfer v).resetAck = s.resetAck :=
  rfl
@[simp] theorem setXfer_initAck (s : State) (v : Option Xfer) :
    (s.setXfer v).initAck = s.initAck :=
  rfl
@[simp] theorem setXfer_blkLenOk (s : State) (v : Option Xfer) :
    (s.setXfer v).blkLenOk = s.blkLenOk :=
  rfl
@[simp] theorem setXfer_active (s : State) (v : Option Xfer) :
    (s.setXfer v).active = s.active :=
  rfl
@[simp] theorem setXfer_cid (s : State) (v : Option Xfer) : (s.setXfer v).cid = s.cid := rfl
@[simp] theorem setXfer_csd (s : State) (v : Option Xfer) : (s.setXfer v).csd = s.csd := rfl
@[simp] theorem setXfer_xfer (s : State) (v : Option Xfer) : (s.setXfer v).xfer = v := rfl
@[simp] theorem setXfer_cs (s : State) (v : Option Xfer) : (s.setXfer v).cs = s.cs := rfl
@[simp] theorem setXfer_lastR1 (s : State) (v : Option Xfer) :
    (s.setXfer v).lastR1 = s.lastR1 :=
  rfl
@[simp] theorem setXfer_lastCrc16 (s : State) (v : Option Xfer) :
    (s.setXfer v).lastCrc16 = s.lastCrc16 :=
  rfl
@[simp] theorem setXfer_lastDataResp (s : State) (v : Option Xfer) :
    (s.setXfer v).lastDataResp = s.lastDataResp :=
  rfl
@[simp] theorem setXfer_bus (s : State) (v : Option Xfer) : (s.setXfer v).bus = s.bus := rfl
@[simp] theorem setXfer_cfg (s : State) (v : Option Xfer) : (s.setXfer v).cfg = s.cfg := rfl
@[simp] theorem setXfer_hostPort (s : State) (v : Option Xfer) :
    (s.setXfer v).hostPort = s.hostPort :=
  rfl
@[simp] theorem setXfer_microPort (s : State) (v : Option Xfer) :
    (s.setXfer v).microPort = s.microPort :=
  rfl
@[simp] theorem setXfer_response (s : State) (v : Option Xfer) :
    (s.setXfer v).response = s.response :=
  rfl

@[simp] theorem setR1_resetAck (s : State) (v : Byte) : (s.setR1 v).resetAck = s.resetAck := rfl
@[simp] theorem setR1_initAck (s : State) (v : Byte) : (s.setR1 v).initAck = s.initAck := rfl
@[simp] theorem setR1_blkLenOk (s : State) (v : Byte) : (s.setR1 v).blkLenOk = s.blkLenOk := rfl
@[simp] theorem setR1_active (s : State) (v : Byte) : (s.setR1 v).active = s.active := rfl
@[simp] theorem setR1_cid (s : State) (v : Byte) : (s.setR1 v).cid = s.cid := rfl
@[simp] theorem setR1_csd (s : State) (v : Byte) : (s.setR1 v).csd = s.csd := rfl
@[simp] theorem setR1_xfer (s : State) (v : Byte) : (s.setR1 v).xfer = s.xfer := rfl
@[simp] theorem setR1_cs (s : State) (v : Byte) : (s.setR1 v).cs = s.cs := rfl
@[simp] theorem setR1_lastR1 (s : State) (v : Byte) : (s.setR1 v).lastR1 = v := rfl
@[simp] theorem setR1_lastCrc16 (s : State) (v : Byte) : (s.setR1 v).lastCrc16 = s.lastCrc16 := rfl
@[simp] theorem setR1_lastDataResp (s : State) (v : Byte) :
    (s.setR1 v).lastDataResp = s.lastDataResp :=
  rfl
@[simp] theorem setR1_bus (s : State) (v : Byte) : (s.setR1 v).bus = s.bus := rfl
@[simp] theorem setR1_cfg (s : State) (v : Byte) : (s.setR1 v).cfg = s.cfg := rfl
@[simp] theorem setR1_hostPort (s : State) (v : Byte) : (s.setR1 v).hostPort = s.hostPort := rfl
@[simp] theorem setR1_microPort (s : State) (v : Byte) : (s.setR1 v).microPort = s.microPort := rfl
@[simp] theorem setR1_response (s : State) (v : Byte) : (s.setR1 v).response = s.response := rfl

@[simp] theorem setCrc16_resetAck (s : State) (v : Half) :
    (s.setCrc16 v).resetAck = s.resetAck :=
  rfl
@[simp] theorem setCrc16_initAck (s : State) (v : Half) : (s.setCrc16 v).initAck = s.initAck := rfl
@[simp] theorem setCrc16_blkLenOk (s : State) (v : Half) :
    (s.setCrc16 v).blkLenOk = s.blkLenOk :=
  rfl
@[simp] theorem setCrc16_active (s : State) (v : Half) : (s.setCrc16 v).active = s.active := rfl
@[simp] theorem setCrc16_cid (s : State) (v : Half) : (s.setCrc16 v).cid = s.cid := rfl
@[simp] theorem setCrc16_csd (s : State) (v : Half) : (s.setCrc16 v).csd = s.csd := rfl
@[simp] theorem setCrc16_xfer (s : State) (v : Half) : (s.setCrc16 v).xfer = s.xfer := rfl
@[simp] theorem setCrc16_cs (s : State) (v : Half) : (s.setCrc16 v).cs = s.cs := rfl
@[simp] theorem setCrc16_lastR1 (s : State) (v : Half) : (s.setCrc16 v).lastR1 = s.lastR1 := rfl
@[simp] theorem setCrc16_lastCrc16 (s : State) (v : Half) : (s.setCrc16 v).lastCrc16 = v := rfl
@[simp] theorem setCrc16_lastDataResp (s : State) (v : Half) :
    (s.setCrc16 v).lastDataResp = s.lastDataResp :=
  rfl
@[simp] theorem setCrc16_bus (s : State) (v : Half) : (s.setCrc16 v).bus = s.bus := rfl
@[simp] theorem setCrc16_cfg (s : State) (v : Half) : (s.setCrc16 v).cfg = s.cfg := rfl
@[simp] theorem setCrc16_hostPort (s : State) (v : Half) :
    (s.setCrc16 v).hostPort = s.hostPort :=
  rfl
@[simp] theorem setCrc16_microPort (s : State) (v : Half) :
    (s.setCrc16 v).microPort = s.microPort :=
  rfl
@[simp] theorem setCrc16_response (s : State) (v : Half) :
    (s.setCrc16 v).response = s.response :=
  rfl

@[simp] theorem setDataResp_resetAck (s : State) (v : Byte) :
    (s.setDataResp v).resetAck = s.resetAck :=
  rfl
@[simp] theorem setDataResp_initAck (s : State) (v : Byte) :
    (s.setDataResp v).initAck = s.initAck :=
  rfl
@[simp] theorem setDataResp_blkLenOk (s : State) (v : Byte) :
    (s.setDataResp v).blkLenOk = s.blkLenOk :=
  rfl
@[simp] theorem setDataResp_active (s : State) (v : Byte) :
    (s.setDataResp v).active = s.active :=
  rfl
@[simp] theorem setDataResp_cid (s : State) (v : Byte) : (s.setDataResp v).cid = s.cid := rfl
@[simp] theorem setDataResp_csd (s : State) (v : Byte) : (s.setDataResp v).csd = s.csd := rfl
@[simp] theorem setDataResp_xfer (s : State) (v : Byte) : (s.setDataResp v).xfer = s.xfer := rfl
@[simp] theorem setDataResp_cs (s : State) (v : Byte) : (s.setDataResp v).cs = s.cs := rfl
@[simp] theorem setDataResp_lastR1 (s : State) (v : Byte) :
    (s.setDataResp v).lastR1 = s.lastR1 :=
  rfl
@[simp] theorem setDataResp_lastCrc16 (s : State) (v : Byte) :
    (s.setDataResp v).lastCrc16 = s.lastCrc16 :=
  rfl
@[simp] theorem setDataResp_lastDataResp (s : State) (v : Byte) :
    (s.setDataResp v).lastDataResp = v :=
  rfl
@[simp] theorem setDataResp_bus (s : State) (v : Byte) : (s.setDataResp v).bus = s.bus := rfl
@[simp] theorem setDataResp_cfg (s : State) (v : Byte) : (s.setDataResp v).cfg = s.cfg := rfl
@[simp] theorem setDataResp_hostPort (s : State) (v : Byte) :
    (s.setDataResp v).hostPort = s.hostPort :=
  rfl
@[simp] theorem setDataResp_microPort (s : State) (v : Byte) :
    (s.setDataResp v).microPort = s.microPort :=
  rfl
@[simp] theorem setDataResp_response (s : State) (v : Byte) :
    (s.setDataResp v).response = s.response :=
  rfl

@[simp] theorem setBus_resetAck (s : State) (v : Bus) : (s.setBus v).resetAck = s.resetAck := rfl
@[simp] theorem setBus_initAck (s : State) (v : Bus) : (s.setBus v).initAck = s.initAck := rfl
@[simp] theorem setBus_blkLenOk (s : State) (v : Bus) : (s.setBus v).blkLenOk = s.blkLenOk := rfl
@[simp] theorem setBus_active (s : State) (v : Bus) : (s.setBus v).active = s.active := rfl
@[simp] theorem setBus_cid (s : State) (v : Bus) : (s.setBus v).cid = s.cid := rfl
@[simp] theorem setBus_csd (s : State) (v : Bus) : (s.setBus v).csd = s.csd := rfl
@[simp] theorem setBus_xfer (s : State) (v : Bus) : (s.setBus v).xfer = s.xfer := rfl
@[simp] theorem setBus_cs (s : State) (v : Bus) : (s.setBus v).cs = s.cs := rfl
@[simp] theorem setBus_lastR1 (s : State) (v : Bus) : (s.setBus v).lastR1 = s.lastR1 := rfl
@[simp] theorem setBus_lastCrc16 (s : State) (v : Bus) : (s.setBus v).lastCrc16 = s.lastCrc16 := rfl
@[simp] theorem setBus_lastDataResp (s : State) (v : Bus) :
    (s.setBus v).lastDataResp = s.lastDataResp :=
  rfl
@[simp] theorem setBus_bus (s : State) (v : Bus) : (s.setBus v).bus = v := rfl
@[simp] theorem setBus_cfg (s : State) (v : Bus) : (s.setBus v).cfg = s.cfg := rfl
@[simp] theorem setBus_hostPort (s : State) (v : Bus) : (s.setBus v).hostPort = s.hostPort := rfl
@[simp] theorem setBus_microPort (s : State) (v : Bus) : (s.setBus v).microPort = s.microPort := rfl
@[simp] theorem setBus_response (s : State) (v : Bus) : (s.setBus v).response = s.response := rfl

@[simp] theorem setCs_resetAck (s : State) (v : Bool) : (s.setCs v).resetAck = s.resetAck := rfl
@[simp] theorem setCs_initAck (s : State) (v : Bool) : (s.setCs v).initAck = s.initAck := rfl
@[simp] theorem setCs_blkLenOk (s : State) (v : Bool) : (s.setCs v).blkLenOk = s.blkLenOk := rfl
@[simp] theorem setCs_active (s : State) (v : Bool) : (s.setCs v).active = s.active := rfl
@[simp] theorem setCs_cid (s : State) (v : Bool) : (s.setCs v).cid = s.cid := rfl
@[simp] theorem setCs_csd (s : State) (v : Bool) : (s.setCs v).csd = s.csd := rfl
@[simp] theorem setCs_xfer (s : State) (v : Bool) : (s.setCs v).xfer = s.xfer := rfl
@[simp] theorem setCs_cs (s : State) (v : Bool) : (s.setCs v).cs = v := rfl
@[simp] theorem setCs_lastR1 (s : State) (v : Bool) : (s.setCs v).lastR1 = s.lastR1 := rfl
@[simp] theorem setCs_lastCrc16 (s : State) (v : Bool) : (s.setCs v).lastCrc16 = s.lastCrc16 := rfl
@[simp] theorem setCs_lastDataResp (s : State) (v : Bool) :
    (s.setCs v).lastDataResp = s.lastDataResp :=
  rfl
@[simp] theorem setCs_bus (s : State) (v : Bool) : (s.setCs v).bus = s.bus := rfl
@[simp] theorem setCs_cfg (s : State) (v : Bool) : (s.setCs v).cfg = s.cfg := rfl
@[simp] theorem setCs_hostPort (s : State) (v : Bool) : (s.setCs v).hostPort = s.hostPort := rfl
@[simp] theorem setCs_microPort (s : State) (v : Bool) : (s.setCs v).microPort = s.microPort := rfl
@[simp] theorem setCs_response (s : State) (v : Bool) : (s.setCs v).response = s.response := rfl

@[simp] theorem respond_resetAck (s : State) (st : Status) (v : Value) :
    (s.respond st v).resetAck = s.resetAck :=
  rfl
@[simp] theorem respond_initAck (s : State) (st : Status) (v : Value) :
    (s.respond st v).initAck = s.initAck :=
  rfl
@[simp] theorem respond_blkLenOk (s : State) (st : Status) (v : Value) :
    (s.respond st v).blkLenOk = s.blkLenOk :=
  rfl
@[simp] theorem respond_active (s : State) (st : Status) (v : Value) :
    (s.respond st v).active = s.active :=
  rfl
@[simp] theorem respond_cid (s : State) (st : Status) (v : Value) :
    (s.respond st v).cid = s.cid :=
  rfl
@[simp] theorem respond_csd (s : State) (st : Status) (v : Value) :
    (s.respond st v).csd = s.csd :=
  rfl
@[simp] theorem respond_xfer (s : State) (st : Status) (v : Value) :
    (s.respond st v).xfer = s.xfer :=
  rfl
@[simp] theorem respond_cs (s : State) (st : Status) (v : Value) : (s.respond st v).cs = s.cs := rfl
@[simp] theorem respond_lastR1 (s : State) (st : Status) (v : Value) :
    (s.respond st v).lastR1 = s.lastR1 :=
  rfl
@[simp] theorem respond_lastCrc16 (s : State) (st : Status) (v : Value) :
    (s.respond st v).lastCrc16 = s.lastCrc16 :=
  rfl
@[simp] theorem respond_lastDataResp (s : State) (st : Status) (v : Value) :
    (s.respond st v).lastDataResp = s.lastDataResp :=
  rfl
@[simp] theorem respond_bus (s : State) (st : Status) (v : Value) :
    (s.respond st v).bus = s.bus :=
  rfl
@[simp] theorem respond_cfg (s : State) (st : Status) (v : Value) :
    (s.respond st v).cfg = s.cfg :=
  rfl
@[simp] theorem respond_hostPort (s : State) (st : Status) (v : Value) :
    (s.respond st v).hostPort = s.hostPort :=
  rfl
@[simp] theorem respond_microPort (s : State) (st : Status) (v : Value) :
    (s.respond st v).microPort = s.microPort :=
  rfl
@[simp] theorem respond_response (s : State) (st : Status) (v : Value) :
    (s.respond st v).response = some ⟨st, v, s.lastR1, s.lastCrc16, s.lastDataResp⟩ :=
  rfl

@[simp] theorem onBus_resetAck (s : State) (f : Bus → Bus) :
    (s.onBus f).resetAck = s.resetAck :=
  rfl
@[simp] theorem onBus_initAck (s : State) (f : Bus → Bus) : (s.onBus f).initAck = s.initAck := rfl
@[simp] theorem onBus_blkLenOk (s : State) (f : Bus → Bus) :
    (s.onBus f).blkLenOk = s.blkLenOk :=
  rfl
@[simp] theorem onBus_active (s : State) (f : Bus → Bus) : (s.onBus f).active = s.active := rfl
@[simp] theorem onBus_cid (s : State) (f : Bus → Bus) : (s.onBus f).cid = s.cid := rfl
@[simp] theorem onBus_csd (s : State) (f : Bus → Bus) : (s.onBus f).csd = s.csd := rfl
@[simp] theorem onBus_xfer (s : State) (f : Bus → Bus) : (s.onBus f).xfer = s.xfer := rfl
@[simp] theorem onBus_cs (s : State) (f : Bus → Bus) : (s.onBus f).cs = s.cs := rfl
@[simp] theorem onBus_lastR1 (s : State) (f : Bus → Bus) : (s.onBus f).lastR1 = s.lastR1 := rfl
@[simp] theorem onBus_lastCrc16 (s : State) (f : Bus → Bus) :
    (s.onBus f).lastCrc16 = s.lastCrc16 :=
  rfl
@[simp] theorem onBus_lastDataResp (s : State) (f : Bus → Bus) :
    (s.onBus f).lastDataResp = s.lastDataResp :=
  rfl
@[simp] theorem onBus_bus (s : State) (f : Bus → Bus) : (s.onBus f).bus = f s.bus := rfl
@[simp] theorem onBus_cfg (s : State) (f : Bus → Bus) : (s.onBus f).cfg = s.cfg := rfl
@[simp] theorem onBus_hostPort (s : State) (f : Bus → Bus) :
    (s.onBus f).hostPort = s.hostPort :=
  rfl
@[simp] theorem onBus_microPort (s : State) (f : Bus → Bus) :
    (s.onBus f).microPort = s.microPort :=
  rfl
@[simp] theorem onBus_response (s : State) (f : Bus → Bus) :
    (s.onBus f).response = s.response :=
  rfl

@[simp] theorem select_resetAck (s : State) : (s.select).resetAck = s.resetAck := rfl
@[simp] theorem select_initAck (s : State) : (s.select).initAck = s.initAck := rfl
@[simp] theorem select_blkLenOk (s : State) : (s.select).blkLenOk = s.blkLenOk := rfl
@[simp] theorem select_active (s : State) : (s.select).active = s.active := rfl
@[simp] theorem select_cid (s : State) : (s.select).cid = s.cid := rfl
@[simp] theorem select_csd (s : State) : (s.select).csd = s.csd := rfl
@[simp] theorem select_xfer (s : State) : (s.select).xfer = s.xfer := rfl
@[simp] theorem select_cs (s : State) : (s.select).cs = true := rfl
@[simp] theorem select_lastR1 (s : State) : (s.select).lastR1 = s.lastR1 := rfl
@[simp] theorem select_lastCrc16 (s : State) : (s.select).lastCrc16 = s.lastCrc16 := rfl
@[simp] theorem select_lastDataResp (s : State) : (s.select).lastDataResp = s.lastDataResp := rfl
@[simp] theorem select_bus (s : State) : (s.select).bus = s.bus.log .sel := rfl
@[simp] theorem select_cfg (s : State) : (s.select).cfg = s.cfg := rfl
@[simp] theorem select_hostPort (s : State) : (s.select).hostPort = s.hostPort := rfl
@[simp] theorem select_microPort (s : State) : (s.select).microPort = s.microPort := rfl
@[simp] theorem select_response (s : State) : (s.select).response = s.response := rfl

@[simp] theorem deselect_resetAck (s : State) : (s.deselect).resetAck = s.resetAck := rfl
@[simp] theorem deselect_initAck (s : State) : (s.deselect).initAck = s.initAck := rfl
@[simp] theorem deselect_blkLenOk (s : State) : (s.deselect).blkLenOk = s.blkLenOk := rfl
@[simp] theorem deselect_active (s : State) : (s.deselect).active = s.active := rfl
@[simp] theorem deselect_cid (s : State) : (s.deselect).cid = s.cid := rfl
@[simp] theorem deselect_csd (s : State) : (s.deselect).csd = s.csd := rfl
@[simp] theorem deselect_xfer (s : State) : (s.deselect).xfer = s.xfer := rfl
@[simp] theorem deselect_cs (s : State) : (s.deselect).cs = false := rfl
@[simp] theorem deselect_lastR1 (s : State) : (s.deselect).lastR1 = s.lastR1 := rfl
@[simp] theorem deselect_lastCrc16 (s : State) : (s.deselect).lastCrc16 = s.lastCrc16 := rfl
@[simp] theorem deselect_lastDataResp (s : State) :
    (s.deselect).lastDataResp = s.lastDataResp :=
  rfl
@[simp] theorem deselect_bus (s : State) : (s.deselect).bus = s.bus.log .desel := rfl
@[simp] theorem deselect_cfg (s : State) : (s.deselect).cfg = s.cfg := rfl
@[simp] theorem deselect_hostPort (s : State) : (s.deselect).hostPort = s.hostPort := rfl
@[simp] theorem deselect_microPort (s : State) : (s.deselect).microPort = s.microPort := rfl
@[simp] theorem deselect_response (s : State) : (s.deselect).response = s.response := rfl

/-- `SendCommand` with its response stored, as two updates. -/
theorem command_eq (s : State) (idx : CmdIndex) (arg : Arg) :
    s.command idx arg =
      (s.setBus (s.bus.command idx arg).2).setR1 (s.bus.command idx arg).1 := rfl
@[simp] theorem command_resetAck (s : State) (idx : CmdIndex) (arg : Arg) :
    (s.command idx arg).resetAck = s.resetAck := by
  simp [command_eq]
@[simp] theorem command_initAck (s : State) (idx : CmdIndex) (arg : Arg) :
    (s.command idx arg).initAck = s.initAck := by
  simp [command_eq]
@[simp] theorem command_blkLenOk (s : State) (idx : CmdIndex) (arg : Arg) :
    (s.command idx arg).blkLenOk = s.blkLenOk := by
  simp [command_eq]
@[simp] theorem command_active (s : State) (idx : CmdIndex) (arg : Arg) :
    (s.command idx arg).active = s.active := by
  simp [command_eq]
@[simp] theorem command_cid (s : State) (idx : CmdIndex) (arg : Arg) :
    (s.command idx arg).cid = s.cid := by
  simp [command_eq]
@[simp] theorem command_csd (s : State) (idx : CmdIndex) (arg : Arg) :
    (s.command idx arg).csd = s.csd := by
  simp [command_eq]
@[simp] theorem command_xfer (s : State) (idx : CmdIndex) (arg : Arg) :
    (s.command idx arg).xfer = s.xfer := by
  simp [command_eq]
@[simp] theorem command_cs (s : State) (idx : CmdIndex) (arg : Arg) :
    (s.command idx arg).cs = s.cs := by
  simp [command_eq]
@[simp] theorem command_lastR1 (s : State) (idx : CmdIndex) (arg : Arg) :
    (s.command idx arg).lastR1 = (s.bus.command idx arg).1 := by
  simp [command_eq]
@[simp] theorem command_lastCrc16 (s : State) (idx : CmdIndex) (arg : Arg) :
    (s.command idx arg).lastCrc16 = s.lastCrc16 := by
  simp [command_eq]
@[simp] theorem command_lastDataResp (s : State) (idx : CmdIndex) (arg : Arg) :
    (s.command idx arg).lastDataResp = s.lastDataResp := by
  simp [command_eq]
@[simp] theorem command_bus (s : State) (idx : CmdIndex) (arg : Arg) :
    (s.command idx arg).bus = (s.bus.command idx arg).2 := by
  simp [command_eq]
@[simp] theorem command_cfg (s : State) (idx : CmdIndex) (arg : Arg) :
    (s.command idx arg).cfg = s.cfg := by
  simp [command_eq]
@[simp] theorem command_hostPort (s : State) (idx : CmdIndex) (arg : Arg) :
    (s.command idx arg).hostPort = s.hostPort := by
  simp [command_eq]
@[simp] theorem command_microPort (s : State) (idx : CmdIndex) (arg : Arg) :
    (s.command idx arg).microPort = s.microPort := by
  simp [command_eq]
@[simp] theorem command_response (s : State) (idx : CmdIndex) (arg : Arg) :
    (s.command idx arg).response = s.response := by
  simp [command_eq]

@[simp] theorem selectSeq_resetAck (s : State) : (s.selectSeq).resetAck = s.resetAck := rfl
@[simp] theorem selectSeq_initAck (s : State) : (s.selectSeq).initAck = s.initAck := rfl
@[simp] theorem selectSeq_blkLenOk (s : State) : (s.selectSeq).blkLenOk = s.blkLenOk := rfl
@[simp] theorem selectSeq_active (s : State) : (s.selectSeq).active = s.active := rfl
@[simp] theorem selectSeq_cid (s : State) : (s.selectSeq).cid = s.cid := rfl
@[simp] theorem selectSeq_csd (s : State) : (s.selectSeq).csd = s.csd := rfl
@[simp] theorem selectSeq_xfer (s : State) : (s.selectSeq).xfer = s.xfer := rfl
@[simp] theorem selectSeq_cs (s : State) : (s.selectSeq).cs = true := rfl
@[simp] theorem selectSeq_lastR1 (s : State) : (s.selectSeq).lastR1 = s.lastR1 := rfl
@[simp] theorem selectSeq_lastCrc16 (s : State) : (s.selectSeq).lastCrc16 = s.lastCrc16 := rfl
@[simp] theorem selectSeq_lastDataResp (s : State) :
    (s.selectSeq).lastDataResp = s.lastDataResp :=
  rfl
@[simp] theorem selectSeq_bus (s : State) :
    (s.selectSeq).bus = ((s.bus.idle s.cfg.preSelectIdleClocks).send idleByte).log .sel :=
  rfl
@[simp] theorem selectSeq_cfg (s : State) : (s.selectSeq).cfg = s.cfg := rfl
@[simp] theorem selectSeq_hostPort (s : State) : (s.selectSeq).hostPort = s.hostPort := rfl
@[simp] theorem selectSeq_microPort (s : State) : (s.selectSeq).microPort = s.microPort := rfl
@[simp] theorem selectSeq_response (s : State) : (s.selectSeq).response = s.response := rfl

@[simp] theorem releaseSeq_resetAck (s : State) : (s.releaseSeq).resetAck = s.resetAck := rfl
@[simp] theorem releaseSeq_initAck (s : State) : (s.releaseSeq).initAck = s.initAck := rfl
@[simp] theorem releaseSeq_blkLenOk (s : State) : (s.releaseSeq).blkLenOk = s.blkLenOk := rfl
@[simp] theorem releaseSeq_active (s : State) : (s.releaseSeq).active = s.active := rfl
@[simp] theorem releaseSeq_cid (s : State) : (s.releaseSeq).cid = s.cid := rfl
@[simp] theorem releaseSeq_csd (s : State) : (s.releaseSeq).csd = s.csd := rfl
@[simp] theorem releaseSeq_xfer (s : State) : (s.releaseSeq).xfer = s.xfer := rfl
@[simp] theorem releaseSeq_cs (s : State) : (s.releaseSeq).cs = false := rfl
@[simp] theorem releaseSeq_lastR1 (s : State) : (s.releaseSeq).lastR1 = s.lastR1 := rfl
@[simp] theorem releaseSeq_lastCrc16 (s : State) : (s.releaseSeq).lastCrc16 = s.lastCrc16 := rfl
@[simp] theorem releaseSeq_lastDataResp (s : State) :
    (s.releaseSeq).lastDataResp = s.lastDataResp :=
  rfl
@[simp] theorem releaseSeq_bus (s : State) :
    (s.releaseSeq).bus = (s.bus.idle s.cfg.postIdleClocks).log .desel :=
  rfl
@[simp] theorem releaseSeq_cfg (s : State) : (s.releaseSeq).cfg = s.cfg := rfl
@[simp] theorem releaseSeq_hostPort (s : State) : (s.releaseSeq).hostPort = s.hostPort := rfl
@[simp] theorem releaseSeq_microPort (s : State) : (s.releaseSeq).microPort = s.microPort := rfl
@[simp] theorem releaseSeq_response (s : State) : (s.releaseSeq).response = s.response := rfl

@[simp] theorem waitBusy_resetAck (s : State) : (s.waitBusy).resetAck = s.resetAck := rfl
@[simp] theorem waitBusy_initAck (s : State) : (s.waitBusy).initAck = s.initAck := rfl
@[simp] theorem waitBusy_blkLenOk (s : State) : (s.waitBusy).blkLenOk = s.blkLenOk := rfl
@[simp] theorem waitBusy_active (s : State) : (s.waitBusy).active = s.active := rfl
@[simp] theorem waitBusy_cid (s : State) : (s.waitBusy).cid = s.cid := rfl
@[simp] theorem waitBusy_csd (s : State) : (s.waitBusy).csd = s.csd := rfl
@[simp] theorem waitBusy_xfer (s : State) : (s.waitBusy).xfer = s.xfer := rfl
@[simp] theorem waitBusy_cs (s : State) : (s.waitBusy).cs = s.cs := rfl
@[simp] theorem waitBusy_lastR1 (s : State) : (s.waitBusy).lastR1 = s.lastR1 := rfl
@[simp] theorem waitBusy_lastCrc16 (s : State) : (s.waitBusy).lastCrc16 = s.lastCrc16 := rfl
@[simp] theorem waitBusy_lastDataResp (s : State) :
    (s.waitBusy).lastDataResp = s.lastDataResp :=
  rfl
@[simp] theorem waitBusy_bus (s : State) :
    (s.waitBusy).bus = s.bus.waitBusy s.cfg.busyDelayMs s.cfg.busyAttempts :=
  rfl
@[simp] theorem waitBusy_cfg (s : State) : (s.waitBusy).cfg = s.cfg := rfl
@[simp] theorem waitBusy_hostPort (s : State) : (s.waitBusy).hostPort = s.hostPort := rfl
@[simp] theorem waitBusy_microPort (s : State) : (s.waitBusy).microPort = s.microPort := rfl
@[simp] theorem waitBusy_response (s : State) : (s.waitBusy).response = s.response := rfl

@[simp] theorem abort_resetAck (s : State) : (s.abort).resetAck = s.resetAck := rfl
@[simp] theorem abort_initAck (s : State) : (s.abort).initAck = s.initAck := rfl
@[simp] theorem abort_blkLenOk (s : State) : (s.abort).blkLenOk = s.blkLenOk := rfl
@[simp] theorem abort_active (s : State) : (s.abort).active = s.active := rfl
@[simp] theorem abort_cid (s : State) : (s.abort).cid = s.cid := rfl
@[simp] theorem abort_csd (s : State) : (s.abort).csd = s.csd := rfl
@[simp] theorem abort_xfer (s : State) : (s.abort).xfer = none := rfl
@[simp] theorem abort_cs (s : State) : (s.abort).cs = false := rfl
@[simp] theorem abort_lastR1 (s : State) : (s.abort).lastR1 = s.lastR1 := rfl
@[simp] theorem abort_lastCrc16 (s : State) : (s.abort).lastCrc16 = s.lastCrc16 := rfl
@[simp] theorem abort_lastDataResp (s : State) : (s.abort).lastDataResp = s.lastDataResp := rfl
@[simp] theorem abort_bus (s : State) :
    (s.abort).bus = (s.bus.idle s.cfg.postIdleClocks).log .desel :=
  rfl
@[simp] theorem abort_cfg (s : State) : (s.abort).cfg = s.cfg := rfl
@[simp] theorem abort_hostPort (s : State) : (s.abort).hostPort = s.hostPort := rfl
@[simp] theorem abort_microPort (s : State) : (s.abort).microPort = s.microPort := rfl
@[simp] theorem abort_response (s : State) : (s.abort).response = s.response := rfl

/-- The response of `SendCommand`. -/
@[simp] theorem sendCommand_fst (s : State) (idx : CmdIndex) (arg : Arg) :
    (s.sendCommand idx arg).1 = (s.bus.command idx arg).1 := rfl

/-- The state after `SendCommand`. -/
@[simp] theorem sendCommand_snd (s : State) (idx : CmdIndex) (arg : Arg) :
    (s.sendCommand idx arg).2 = s.command idx arg := rfl

/-- Whether `WaitToken` found the token. -/
theorem waitToken_fst (s : State) :
    s.waitToken.1 = (s.bus.waitToken s.cfg.tokenDelayMs s.cfg.tokenAttempts).1 := rfl

/-- The state after `WaitToken`: only the bus has changed. -/
theorem waitToken_snd (s : State) :
    s.waitToken.2 = s.setBus (s.bus.waitToken s.cfg.tokenDelayMs s.cfg.tokenAttempts).2 := rfl

end Sys2Proof.Machine.State
end

