-- ==== Sys2Proof/Laws/Ops.lean ====
section
/-! SUPPORT. What each micro-sequence can do to the state, said once: the events it appends, whatever
the card answers. The fields it leaves alone are in Laws/State.lean. -/

namespace Sys2Proof.Machine

namespace State

/-- `SendCommand` (41 R122): the bus and `S.lastR1` change, by the events `CommandEvents` describes. -/
theorem sendCommand_spec (s : State) (idx : CmdIndex) (arg : Arg) :
    ∃ (r : Byte) (ev : List BusEvent) (b : Bus), CommandEvents idx arg r ev ∧
      b.trace = s.bus.trace ++ ev ∧
      s.sendCommand idx arg = (r, { s with bus := b, lastR1 := r }) := by
  obtain ⟨ev, h, ht⟩ := Bus.command_spec idx arg s.bus
  exact ⟨_, ev, _, h, ht, rfl⟩

/-- `SendCommand` with its response not examined. -/
theorem command_spec (s : State) (idx : CmdIndex) (arg : Arg) :
    ∃ (r : Byte) (ev : List BusEvent) (b : Bus), CommandEvents idx arg r ev ∧
      b.trace = s.bus.trace ++ ev ∧ s.command idx arg = { s with bus := b, lastR1 := r } := by
  obtain ⟨r, ev, b, h, ht, he⟩ := s.sendCommand_spec idx arg
  exact ⟨r, ev, b, h, ht, by rw [← sendCommand_snd, he]⟩

/-- `SelectSeq` (44_transfer R191). -/
theorem selectSeq_spec (s : State) :
    ∃ (ev : List BusEvent) (b : Bus), SelectEvents s.cfg.preSelectIdleClocks ev ∧
      b.trace = s.bus.trace ++ ev ∧ s.selectSeq = { s with bus := b, cs := true } := by
  obtain ⟨ev, h, ht⟩ := Bus.idle_spec (s.cfg.preSelectIdleClocks + 1) s.bus
  exact ⟨_, s.selectSeq.bus, ⟨ev, h, rfl⟩,
    by rw [selectSeq_bus, Bus.log_trace, ← Bus.idle_succ_last, ht, List.append_assoc], rfl⟩

/-- `ReleaseSeq` (44_transfer R192). -/
theorem releaseSeq_spec (s : State) :
    ∃ (ev : List BusEvent) (b : Bus), ReleaseEvents s.cfg.postIdleClocks ev ∧
      b.trace = s.bus.trace ++ ev ∧ s.releaseSeq = { s with bus := b, cs := false } := by
  obtain ⟨ev, h, ht⟩ := Bus.idle_spec s.cfg.postIdleClocks s.bus
  exact ⟨_, s.releaseSeq.bus, ⟨ev, h, rfl⟩,
    by rw [releaseSeq_bus, Bus.log_trace, ht, List.append_assoc], rfl⟩

/-- `WaitToken` (44_transfer R193). -/
theorem waitToken_spec (s : State) :
    ∃ (found : Bool) (ev : List BusEvent) (b : Bus),
      TokenEvents s.cfg.tokenDelayMs s.cfg.tokenAttempts found ev ∧
      b.trace = s.bus.trace ++ ev ∧ s.waitToken = (found, { s with bus := b }) := by
  obtain ⟨ev, h, ht⟩ := Bus.waitToken_spec s.cfg.tokenDelayMs s.cfg.tokenAttempts s.bus
  exact ⟨_, ev, _, h, ht, rfl⟩

/-- `WaitBusy` (44_transfer R194). -/
theorem waitBusy_spec (s : State) :
    ∃ (ev : List BusEvent) (b : Bus), BusyEvents s.cfg.busyDelayMs s.cfg.busyAttempts ev ∧
      b.trace = s.bus.trace ++ ev ∧ s.waitBusy = { s with bus := b } := by
  obtain ⟨ev, h, ht⟩ := Bus.waitBusy_spec s.cfg.busyDelayMs s.cfg.busyAttempts s.bus
  exact ⟨ev, _, h, ht, rfl⟩

end State

/-- The four mode bits read back (30_encoding R83). -/
theorem mode_round_trip (dir : Dir) (gran : Gran) :
    modeDir (modeBits dir gran) = dir ∧ modeGran (modeBits dir gran) = gran := by
  cases dir <;> cases gran <;> decide

/-! Counting. -/

@[simp] theorem exchanges_nil : exchanges [] = 0 := rfl
@[simp] theorem exchanges_append (a b : List BusEvent) :
    exchanges (a ++ b) = exchanges a + exchanges b := by simp [exchanges]
@[simp] theorem exchanges_xchg (o i : Byte) (ev : List BusEvent) :
    exchanges (.xchg o i :: ev) = exchanges ev + 1 := by simp [exchanges]
@[simp] theorem exchanges_sel (ev : List BusEvent) : exchanges (.sel :: ev) = exchanges ev := by
  simp [exchanges]
@[simp] theorem exchanges_desel (ev : List BusEvent) : exchanges (.desel :: ev) = exchanges ev := by
  simp [exchanges]
@[simp] theorem exchanges_dly (ms : Nat) (ev : List BusEvent) :
    exchanges (.dly ms :: ev) = exchanges ev := by
  simp [exchanges]
@[simp] theorem delays_nil : delays [] = 0 := rfl
@[simp] theorem delays_append (a b : List BusEvent) : delays (a ++ b) = delays a + delays b := by
  simp [delays]
@[simp] theorem delays_xchg (o i : Byte) (ev : List BusEvent) :
    delays (.xchg o i :: ev) = delays ev := by
  simp [delays]
@[simp] theorem delays_sel (ev : List BusEvent) : delays (.sel :: ev) = delays ev := by simp [delays]
@[simp] theorem delays_desel (ev : List BusEvent) : delays (.desel :: ev) = delays ev := by
  simp [delays]
@[simp] theorem delays_dly (ms : Nat) (ev : List BusEvent) :
    delays (.dly ms :: ev) = delays ev + 1 := by
  simp [delays]
@[simp] theorem exchanges_replicate (n : Nat) (o i : Byte) :
    exchanges (List.replicate n (.xchg o i)) = n := by
  simp [exchanges, List.countP_replicate]
@[simp] theorem delays_replicate (n : Nat) (o i : Byte) :
    delays (List.replicate n (.xchg o i)) = 0 := by
  simp [delays, List.countP_replicate]
@[simp] theorem exchanges_map (o : Byte) (is : List Byte) :
    exchanges (is.map (BusEvent.xchg o)) = is.length := by
  induction is with
  | nil => rfl
  | cons i is ih => simp [ih]
@[simp] theorem delays_map (o : Byte) (is : List Byte) : delays (is.map (BusEvent.xchg o)) = 0 := by
  induction is with
  | nil => rfl
  | cons i is ih => simp [ih]
@[simp] theorem exchanges_zipWith (os is : List Byte) :
    exchanges (List.zipWith BusEvent.xchg os is) = min os.length is.length := by
  induction os generalizing is with
  | nil => simp
  | cons o os ih => cases is <;> simp [ih]
@[simp] theorem delays_zipWith (os is : List Byte) :
    delays (List.zipWith BusEvent.xchg os is) = 0 := by
  induction os generalizing is with
  | nil => simp
  | cons o os ih => cases is <;> simp [ih]

theorem IdleEvents.counts {n : Nat} {ev : List BusEvent} (h : IdleEvents n ev) :
    exchanges ev = n ∧ delays ev = 0 := by
  obtain ⟨got, rfl, rfl⟩ := h
  simp

/-- A token wait of `n` attempts makes at most `n` exchanges and `n` delays. -/
theorem TokenEvents.counts {ms n : Nat} {found : Bool} {ev : List BusEvent}
    (h : TokenEvents ms n found ev) : exchanges ev ≤ n ∧ delays ev ≤ n := by
  obtain ⟨missed, -, h⟩ := h
  have hm : ∀ m : List Byte,
      exchanges (m.flatMap fun b => [.xchg idleByte b, .dly ms]) = m.length ∧
      delays (m.flatMap fun b => [.xchg idleByte b, .dly ms]) = m.length := by
    intro m
    induction m with
    | nil => simp
    | cons b m ih => simp [ih]
  obtain ⟨-, hl, rfl⟩ | ⟨-, hl, rfl⟩ := h <;> simp [hm] <;> omega

/-- A busy wait of `n` attempts makes at most `n` exchanges and `n` delays. -/
theorem BusyEvents.counts {ms n : Nat} {ev : List BusEvent} (h : BusyEvents ms n ev) :
    exchanges ev ≤ n ∧ delays ev ≤ n := by
  have hm : ∀ k : Nat,
      exchanges (List.replicate k [.xchg idleByte 0x00#8, .dly ms]).flatten = k ∧
      delays (List.replicate k [.xchg idleByte 0x00#8, .dly ms]).flatten = k := by
    intro k
    induction k with
    | zero => simp
    | succ k ih => simp [List.replicate_succ, ih]
  obtain ⟨k, ⟨rfl, rfl⟩ | ⟨hk, b, -, rfl⟩⟩ := h
  · simp [hm]
  · simp [hm]
    omega

theorem SelectEvents.counts {n : Nat} {ev : List BusEvent} (h : SelectEvents n ev) :
    exchanges ev = n + 1 ∧ delays ev = 0 := by
  obtain ⟨e, h, rfl⟩ := h
  simp [h.counts]

theorem ReleaseEvents.counts {n : Nat} {ev : List BusEvent} (h : ReleaseEvents n ev) :
    exchanges ev = n ∧ delays ev = 0 := by
  obtain ⟨e, h, rfl⟩ := h
  simp [h.counts]

/-! The chip-select discipline. -/

/-- Only the idle byte is sent in these events, and the line does not move. -/
def IdleOnly (ev : List BusEvent) : Prop :=
  ∀ p : Bool × Bool, ev.foldl trackSelect p = p

/-- No select event among these events. -/
def LineStays (ev : List BusEvent) : Prop :=
  ev.foldl trackSelect (true, true) = (true, true)

theorem IdleOnly.lineStays {ev : List BusEvent} (h : IdleOnly ev) : LineStays ev := h _

theorem IdleOnly.append {a b : List BusEvent} (ha : IdleOnly a) (hb : IdleOnly b) :
    IdleOnly (a ++ b) := by
  intro p
  rw [List.foldl_append, ha, hb]

theorem LineStays.append {a b : List BusEvent} (ha : LineStays a) (hb : LineStays b) :
    LineStays (a ++ b) := by
  unfold LineStays at *
  rw [List.foldl_append, ha, hb]

theorem trackSelect_idle (p : Bool × Bool) (i : Byte) : trackSelect p (.xchg idleByte i) = p := by
  simp [trackSelect]

theorem lineStays_xchg (o i : Byte) : LineStays [.xchg o i] := by
  simp [LineStays, trackSelect]

theorem lineStays_zipWith (os is : List Byte) : LineStays (List.zipWith BusEvent.xchg os is) := by
  induction os generalizing is with
  | nil => simp [LineStays]
  | cons o os ih =>
    cases is with
    | nil => simp [LineStays]
    | cons i is => exact (lineStays_xchg o i).append (ih is)

theorem idleOnly_map (is : List Byte) : IdleOnly (is.map (BusEvent.xchg idleByte)) := by
  induction is with
  | nil => intro p; rfl
  | cons i is ih => intro p; simp only [List.map_cons, List.foldl_cons, trackSelect_idle]; exact ih p

theorem IdleEvents.idleOnly {n : Nat} {ev : List BusEvent} (h : IdleEvents n ev) : IdleOnly ev := by
  obtain ⟨got, -, rfl⟩ := h
  exact idleOnly_map got

theorem idleOnly_dly (ms : Nat) : IdleOnly [.dly ms] := fun _ => rfl

theorem idleOnly_xchg (i : Byte) : IdleOnly [.xchg idleByte i] := fun p => trackSelect_idle p i

/-- `SendCommand` leaves the select line alone (41 R122, R125). -/
theorem CommandEvents.lineStays {idx : CmdIndex} {arg : Arg} {r : Byte} {ev : List BusEvent}
    (h : CommandEvents idx arg r ev) : LineStays ev := by
  have hi : ∀ k : Nat, LineStays (List.replicate k (.xchg idleByte idleByte)) := by
    intro k
    have := (idleOnly_map (List.replicate k idleByte)).lineStays
    simpa using this
  obtain ⟨got, k, -, ⟨-, -, rfl⟩ | ⟨-, -, rfl⟩⟩ := h
  · exact (lineStays_zipWith _ _).append (hi k)
  · exact ((lineStays_zipWith _ _).append (hi k)).append (lineStays_xchg _ _)

theorem TokenEvents.idleOnly {ms n : Nat} {found : Bool} {ev : List BusEvent}
    (h : TokenEvents ms n found ev) : IdleOnly ev := by
  obtain ⟨missed, -, h⟩ := h
  have hm : ∀ m : List Byte, IdleOnly (m.flatMap fun b => [.xchg idleByte b, .dly ms]) := by
    intro m
    induction m with
    | nil => intro p; rfl
    | cons b m ih => exact ((idleOnly_xchg b).append (idleOnly_dly ms)).append ih
  obtain ⟨-, -, rfl⟩ | ⟨-, -, rfl⟩ := h
  · exact (hm _).append (idleOnly_xchg _)
  · exact hm _

/-- After `SelectSeq` the line is asserted, and only the idle byte went out before (44_transfer R191). -/
theorem SelectEvents.track {n : Nat} {ev : List BusEvent} (h : SelectEvents n ev) (p : Bool) :
    ev.foldl trackSelect (p, true) = (true, true) := by
  obtain ⟨e, h, rfl⟩ := h
  rw [List.foldl_append, h.idleOnly]
  rfl

/-- After `ReleaseSeq` the line is released (44_transfer R192). -/
theorem ReleaseEvents.track {n : Nat} {ev : List BusEvent} (h : ReleaseEvents n ev) (p : Bool) :
    ev.foldl trackSelect (p, true) = (false, true) := by
  obtain ⟨e, h, rfl⟩ := h
  rw [List.foldl_append, h.idleOnly]
  rfl

theorem BusyEvents.idleOnly {ms n : Nat} {ev : List BusEvent} (h : BusyEvents ms n ev) :
    IdleOnly ev := by
  have hm : ∀ k : Nat,
      IdleOnly (List.replicate k [BusEvent.xchg idleByte 0x00, .dly ms]).flatten := by
    intro k
    induction k with
    | zero => intro p; rfl
    | succ k ih =>
      rw [List.replicate_succ, List.flatten_cons]
      exact ((idleOnly_xchg _).append (idleOnly_dly ms)).append ih
  obtain ⟨k, ⟨-, rfl⟩ | ⟨-, b, -, rfl⟩⟩ := h
  · exact hm k
  · exact (hm k).append (idleOnly_xchg b)

/-- The close of a transfer leaves the line released (44_transfer R205). -/
theorem CloseEvents.track {cfg : Cfg} {dir : Dir} {r : Byte} {ev : List BusEvent}
    (h : CloseEvents cfg dir r ev) : ev.foldl trackSelect (true, true) = (false, true) := by
  obtain ⟨e1, e2, e3, rfl, h1, h2⟩ := h
  cases dir with
  | read =>
    obtain ⟨rfl, h1⟩ := h1
    rw [List.foldl_append, List.nil_append, h1.lineStays, h2.track]
  | write => rw [List.foldl_append, List.foldl_append, h1.1.idleOnly, h1.2.lineStays, h2.track]

end Sys2Proof.Machine
end

