-- ==== Sys2Proof/Laws/Initialization.lean ====
section
/-! SUPPORT. The Initialization State Machine: what each stage can do, said once, as a record update
and the events it appends. -/

namespace Sys2Proof.Machine

/-! Building a stage from its attempts. -/

theorem StageEvents.none (one : Byte → List BusEvent → Prop) (good : Byte) (ms : Nat) (r : Byte) :
    StageEvents one good ms 0 false r r [] :=
  ⟨[], by simp, .inr ⟨rfl, rfl, rfl, rfl⟩⟩

theorem StageEvents.done {one : Byte → List BusEvent → Prop} {good : Byte} {ms n : Nat}
    {before : Byte} {e : List BusEvent} (h : one good e) :
    StageEvents one good ms (n + 1) true before good e :=
  ⟨[], by simp, .inl ⟨rfl, by simp, rfl, e, h, by simp⟩⟩

theorem StageEvents.failed {one : Byte → List BusEvent → Prop} {good r before last : Byte}
    {ms n : Nat} {b : Bool} {e ev : List BusEvent} (hr : r ≠ good) (he : one r e)
    (h : StageEvents one good ms n b r last ev) :
    StageEvents one good ms (n + 1) b before last (e ++ [.dly ms] ++ ev) := by
  obtain ⟨failed, hf, h⟩ := h
  have hf' : ∀ a ∈ (r, e) :: failed, a.1 ≠ good ∧ one a.1 a.2 := by
    intro a ha
    rcases List.mem_cons.1 ha with rfl | ha
    · exact ⟨hr, he⟩
    · exact hf a ha
  obtain ⟨hb, hl, hg, x, ho, rfl⟩ | ⟨hb, hl, hg, rfl⟩ := h
  · exact ⟨(r, e) :: failed, hf', .inl ⟨hb, by simpa using hl, hg, x, ho, by simp⟩⟩
  · exact ⟨(r, e) :: failed, hf', .inr ⟨hb, by simpa using hl,
      by rw [hg, List.map_cons, List.getLastD_cons], by simp⟩⟩

namespace State

/-- Stage 1 with a budget (43 R172). -/
theorem resetLoop_spec (n : Nat) (s : State) :
    ∃ (ev : List BusEvent) (b : Bus) (r : Byte) (done : Bool),
      StageEvents (CommandEvents idxReset 0) r1Idle s.cfg.stageDelayMs n done s.lastR1 r ev ∧
      b.trace = s.bus.trace ++ ev ∧
      resetLoop n s = { s with bus := b, lastR1 := r, resetAck := s.resetAck || done } := by
  induction n generalizing s with
  | zero => exact ⟨[], s.bus, s.lastR1, false, .none _ _ _ _, by simp, by simp [resetLoop]⟩
  | succ n ih =>
    obtain ⟨r, e, b, he, ht, hc⟩ := s.sendCommand_spec idxReset 0
    have hl : resetLoop (n + 1) s =
        if r = r1Idle then setResetAck { s with bus := b, lastR1 := r }
        else resetLoop n (stageDelay { s with bus := b, lastR1 := r }) := by
      simp only [resetLoop, hc]
    by_cases hr : r = r1Idle
    · rw [if_pos hr] at hl
      exact ⟨e, b, r, true, hr ▸ .done (hr ▸ he), ht, by rw [hl, Bool.or_true]; rfl⟩
    · rw [if_neg hr] at hl
      obtain ⟨ev, b', r', done, hs, hb, hx⟩ := ih (stageDelay { s with bus := b, lastR1 := r })
      refine ⟨_, b', r', done, .failed hr he hs, ?_, by rw [hl, hx]; rfl⟩
      rw [hb]
      simp [stageDelay, ht]

/-- One attempt of stage 2 (43 R173): the bus and `S.lastR1` change. -/
theorem negotiateOnce_spec (s : State) :
    ∃ (r : Byte) (ev : List BusEvent) (b : Bus), NegotiateEvents s.cfg r ev ∧
      b.trace = s.bus.trace ++ ev ∧ s.negotiateOnce = (r, { s with bus := b, lastR1 := r }) := by
  obtain ⟨r1, e1, b1, h1, t1, x1⟩ := s.command_spec s.cfg.idxAppPrefix 0
  obtain ⟨r2, e2, b2, h2, t2, x2⟩ :=
    (State.sendCommand_spec { s with bus := b1, lastR1 := r1 }) s.cfg.idxSdcInit s.cfg.argSdcInit
  have hn : s.negotiateOnce =
      if illegalCommand s.cfg r2 then
        sendCommand s.cfg.idxMmcInit 0 { s with bus := b2, lastR1 := r2 }
      else (r2, { s with bus := b2, lastR1 := r2 }) := by
    simp only [negotiateOnce, x1, x2]
  by_cases hi : illegalCommand s.cfg r2 = true
  · rw [if_pos hi] at hn
    obtain ⟨r3, e3, b3, h3, t3, x3⟩ :=
      (State.sendCommand_spec { s with bus := b2, lastR1 := r2 }) s.cfg.idxMmcInit 0
    exact ⟨r3, e1 ++ e2 ++ e3, b3,
      ⟨r1, r2, e1, e2, h1, h2, .inl ⟨by simpa [illegalCommand] using hi, e3, h3, rfl⟩⟩,
      by rw [t3, t2, t1, List.append_assoc, List.append_assoc, List.append_assoc],
      by rw [hn, x3]⟩
  · rw [if_neg hi] at hn
    exact ⟨r2, e1 ++ e2, b2,
      ⟨r1, r2, e1, e2, h1, h2, .inr ⟨by simpa [illegalCommand] using hi, rfl, rfl⟩⟩,
      by rw [t2, t1, List.append_assoc], hn⟩

/-- Stage 2 with a budget (43 R173). -/
theorem negotiateLoop_spec (n : Nat) (s : State) :
    ∃ (ev : List BusEvent) (b : Bus) (r : Byte) (done : Bool),
      StageEvents (NegotiateEvents s.cfg) r1Ready s.cfg.stageDelayMs n done s.lastR1 r ev ∧
      b.trace = s.bus.trace ++ ev ∧
      negotiateLoop n s = { s with bus := b, lastR1 := r, initAck := s.initAck || done } := by
  induction n generalizing s with
  | zero => exact ⟨[], s.bus, s.lastR1, false, .none _ _ _ _, by simp, by simp [negotiateLoop]⟩
  | succ n ih =>
    obtain ⟨r, e, b, he, ht, hc⟩ := s.negotiateOnce_spec
    have hl : negotiateLoop (n + 1) s =
        if r = r1Ready then setInitAck { s with bus := b, lastR1 := r }
        else negotiateLoop n (stageDelay { s with bus := b, lastR1 := r }) := by
      simp only [negotiateLoop, hc]
    by_cases hr : r = r1Ready
    · rw [if_pos hr] at hl
      exact ⟨e, b, r, true, hr ▸ .done (hr ▸ he), ht, by rw [hl, Bool.or_true]; rfl⟩
    · rw [if_neg hr] at hl
      obtain ⟨ev, b', r', done, hs, hb, hx⟩ := ih (stageDelay { s with bus := b, lastR1 := r })
      refine ⟨_, b', r', done, .failed hr he hs, ?_, by rw [hl, hx]; rfl⟩
      rw [hb]
      simp [stageDelay, ht]

/-- Stage 3 with a budget (43 R174). -/
theorem blockLenLoop_spec (n : Nat) (s : State) :
    ∃ (ev : List BusEvent) (b : Bus) (r : Byte) (done : Bool),
      StageEvents (CommandEvents s.cfg.idxSetBlocklen 512) r1Ready s.cfg.stageDelayMs n done
        s.lastR1 r ev ∧
      b.trace = s.bus.trace ++ ev ∧
      blockLenLoop n s = { s with bus := b, lastR1 := r, blkLenOk := s.blkLenOk || done } := by
  induction n generalizing s with
  | zero => exact ⟨[], s.bus, s.lastR1, false, .none _ _ _ _, by simp, by simp [blockLenLoop]⟩
  | succ n ih =>
    obtain ⟨r, e, b, he, ht, hc⟩ := s.sendCommand_spec s.cfg.idxSetBlocklen 512
    have hl : blockLenLoop (n + 1) s =
        if r = r1Ready then setBlkLenOk { s with bus := b, lastR1 := r }
        else blockLenLoop n (stageDelay { s with bus := b, lastR1 := r }) := by
      simp only [blockLenLoop, hc]
    by_cases hr : r = r1Ready
    · rw [if_pos hr] at hl
      exact ⟨e, b, r, true, hr ▸ .done (hr ▸ he), ht, by rw [hl, Bool.or_true]; rfl⟩
    · rw [if_neg hr] at hl
      obtain ⟨ev, b', r', done, hs, hb, hx⟩ := ih (stageDelay { s with bus := b, lastR1 := r })
      refine ⟨_, b', r', done, .failed hr he hs, ?_, by rw [hl, hx]; rfl⟩
      rw [hb]
      simp [stageDelay, ht]

/-- The retrieval of one register (43 R175): the token did not come, or the 16 bytes received are
written by `put` and the end-of-read command follows. -/
theorem retrieve_spec (idx : CmdIndex) (put : Reg16 → State → State) (s : State)
    (hbus : ∀ v t, (put v t).bus = t.bus) :
    ∃ (found : Bool) (reg : Reg16) (ev : List BusEvent) (r r' : Byte) (b b' : Bus),
      RetrieveEvents s.cfg idx found reg r' ev ∧ b'.trace = s.bus.trace ++ ev ∧
      s.retrieve idx put = (found,
        if found then { put reg { s with bus := b, lastR1 := r } with bus := b', lastR1 := r' }
        else { s with bus := b', lastR1 := r' }) := by
  obtain ⟨r1, e1, b1, h1, t1, x1⟩ := s.command_spec idx 0
  obtain ⟨found, e2, b2, h2, t2, x2⟩ := State.waitToken_spec { s with bus := b1, lastR1 := r1 }
  cases found with
  | false =>
    exact ⟨false, Reg16.zero, e1 ++ e2, r1, r1, b2, b2, ⟨r1, e1, e2, h1, h2, .inl ⟨rfl, rfl, rfl, rfl⟩⟩,
      by rw [t2, t1, List.append_assoc], by simp only [retrieve, x1, x2]; rfl⟩
  | true =>
    obtain ⟨hl, hb⟩ := Bus.recvReg_spec 16 b2
    obtain ⟨r3, e3, b3, h3, t3, x3⟩ :=
      (put (Bus.recvReg 16 b2).1 { s with bus := b2.idle 16, lastR1 := r1 }).command_spec
        s.cfg.idxEndRead 0
    refine ⟨true, (Bus.recvReg 16 b2).1,
      e1 ++ e2 ++ (Bus.recvReg 16 b2).1.toList.map (BusEvent.xchg idleByte) ++ e3, r1, r3, b2.idle 16,
      b3, ⟨r1, e1, e2, h1, h2, .inr ⟨rfl, e3, h3, rfl⟩⟩, ?_, ?_⟩
    · rw [t3, hbus, hl]
      show (Bus.idle 16 b2).trace ++ e3 = _
      rw [Bus.recv_trace, t2, t1]
      simp only [List.append_assoc]
    · simp only [retrieve, x1, x2, hb, if_true]
      exact congrArg (Prod.mk true) x3

end State

end Sys2Proof.Machine
end

