-- ==== Sys2Proof/Laws/PerInstr.lean ====
section
/-! SUPPORT. Statements made instruction by instruction, one lemma per constructor. -/

namespace Sys2Proof.Laws.PortClass

open Sys2Proof.Machine

/-- The first byte of an instruction's word says which port it belongs to: a host operation's is below
0x10 (30_encoding R82), every engine-side word's is not (R70, R75). -/
def Statement (i : Instr) : Prop :=
  ∀ cfg : Cfg, ∃ b rest, encode cfg i = b :: rest ∧ (i.isHostOp = true ↔ b.toNat < 16)

theorem of_frame {i : Instr} (h : i.isHostOp = false)
    (hf : ∀ cfg : Cfg, ∃ idx arg, encode cfg i = Machine.frame idx arg) : Statement i := by
  intro cfg
  obtain ⟨idx, arg, he⟩ := hf cfg
  obtain ⟨-, -, -, hn⟩ := frame_first_byte idx
  refine ⟨0x40#8 ||| idx.setWidth 8, _, he, ?_⟩
  rw [h, hn]
  simp
  omega

theorem isActive : Statement .isActive :=
  fun _ => ⟨_, _, rfl, by simp [Instr.isHostOp]⟩
theorem initializeCard : Statement .initializeCard :=
  fun _ => ⟨_, _, rfl, by simp [Instr.isHostOp]⟩
theorem capacityBytes : Statement .capacityBytes :=
  fun _ => ⟨_, _, rfl, by simp [Instr.isHostOp]⟩
theorem getCid : Statement .getCid :=
  fun _ => ⟨_, _, rfl, by simp [Instr.isHostOp]⟩
theorem getCsd : Statement .getCsd :=
  fun _ => ⟨_, _, rfl, by simp [Instr.isHostOp]⟩
theorem readBlock (addr : Arg) : Statement (.readBlock addr) :=
  fun _ => ⟨_, _, rfl, by simp [Instr.isHostOp]⟩
theorem writeBlock (addr : Arg) (buf : List Byte) : Statement (.writeBlock addr buf) :=
  fun _ => ⟨_, _, rfl, by simp [Instr.isHostOp]⟩
theorem beginTransfer (dir : Dir) (gran : Gran) (addr : Arg) : Statement (.beginTransfer dir gran addr) :=
  fun _ => ⟨_, _, rfl, by simp [Instr.isHostOp]⟩
theorem startSubBlock : Statement .startSubBlock :=
  fun _ => ⟨_, _, rfl, by simp [Instr.isHostOp]⟩
theorem stopSubBlock (crcOut : Half) : Statement (.stopSubBlock crcOut) :=
  fun _ => ⟨_, _, rfl, by simp [Instr.isHostOp]⟩
theorem endTransfer (crcOut : Half) : Statement (.endTransfer crcOut) :=
  fun _ => ⟨_, _, rfl, by simp [Instr.isHostOp]⟩
theorem xferByte (out : Byte) : Statement (.xferByte out) :=
  fun _ => ⟨_, _, rfl, by simp [Instr.isHostOp]⟩
theorem crc7 (seed : Byte) (bytes : List Byte) : Statement (.crc7 seed bytes) :=
  fun _ => ⟨_, _, rfl, by simp [Instr.isHostOp]⟩
theorem crc16 (seed : Half) (bytes : List Byte) : Statement (.crc16 seed bytes) :=
  fun _ => ⟨_, _, rfl, by simp [Instr.isHostOp]⟩
theorem reservedE : Statement .reservedE :=
  fun _ => ⟨_, _, rfl, by simp [Instr.isHostOp]⟩
theorem reservedF : Statement .reservedF :=
  fun _ => ⟨_, _, rfl, by simp [Instr.isHostOp]⟩
theorem frame (idx : CmdIndex) (arg : Arg) : Statement (.frame idx arg) :=
  of_frame rfl fun _ => ⟨_, _, rfl⟩
theorem cmdReset : Statement .cmdReset :=
  of_frame rfl fun _ => ⟨_, _, rfl⟩
theorem cmdMmcInit : Statement .cmdMmcInit :=
  of_frame rfl fun _ => ⟨_, _, rfl⟩
theorem cmdAppPrefix : Statement .cmdAppPrefix :=
  of_frame rfl fun _ => ⟨_, _, rfl⟩
theorem cmdSdcInit : Statement .cmdSdcInit :=
  of_frame rfl fun _ => ⟨_, _, rfl⟩
theorem cmdSetBlocklen : Statement .cmdSetBlocklen :=
  of_frame rfl fun _ => ⟨_, _, rfl⟩
theorem cmdReadCid : Statement .cmdReadCid :=
  of_frame rfl fun _ => ⟨_, _, rfl⟩
theorem cmdReadCsd : Statement .cmdReadCsd :=
  of_frame rfl fun _ => ⟨_, _, rfl⟩
theorem cmdEndRead : Statement .cmdEndRead :=
  of_frame rfl fun _ => ⟨_, _, rfl⟩
theorem cmdEndWrite : Statement .cmdEndWrite :=
  of_frame rfl fun _ => ⟨_, _, rfl⟩
theorem cmdReadSingle (addr : Arg) : Statement (.cmdReadSingle addr) :=
  of_frame rfl fun _ => ⟨_, _, rfl⟩
theorem cmdReadMulti (addr : Arg) : Statement (.cmdReadMulti addr) :=
  of_frame rfl fun _ => ⟨_, _, rfl⟩
theorem cmdWriteSingle (addr : Arg) : Statement (.cmdWriteSingle addr) :=
  of_frame rfl fun _ => ⟨_, _, rfl⟩
theorem cmdWriteMulti (addr : Arg) : Statement (.cmdWriteMulti addr) :=
  of_frame rfl fun _ => ⟨_, _, rfl⟩
theorem tokenStartSingle : Statement .tokenStartSingle := fun _ => ⟨_, [], rfl, by decide⟩
theorem tokenStartMultiWrite : Statement .tokenStartMultiWrite := fun _ => ⟨_, [], rfl, by decide⟩
theorem tokenStopMultiWrite : Statement .tokenStopMultiWrite := fun _ => ⟨_, [], rfl, by decide⟩
theorem byteIdle : Statement .byteIdle := fun _ => ⟨_, [], rfl, by decide⟩

end Sys2Proof.Laws.PortClass
end

