-- ==== Sys2Proof/Laws/RegisterDecoder.lean ====
section
/-! SUPPORT. The 128-bit numbering of a raw register (42 R150), bit by bit. -/

namespace Sys2Proof.Machine

/-- Bits of bytes shifted in one after another: the last byte lowest. -/
theorem foldl_bytes_getLsbD (bs : List Byte) (acc : BitVec 128) (i : Nat) (hi : i < 128) :
    (bs.foldl (fun (acc : BitVec 128) (b : Byte) => (acc <<< 8) ||| b.setWidth 128) acc).getLsbD i =
      if h : i / 8 < bs.length then (bs[bs.length - 1 - i / 8]'(by omega)).getLsbD (i % 8)
      else acc.getLsbD (i - 8 * bs.length) := by
  induction bs generalizing acc with
  | nil => simp
  | cons b bs ih =>
    rw [List.foldl_cons, ih]
    by_cases h : i / 8 < bs.length
    · have hl : (b :: bs).length - 1 - i / 8 = (bs.length - 1 - i / 8) + 1 := by simp; omega
      rw [dif_pos h, dif_pos (by simp; omega)]
      simp only [hl, List.getElem_cons_succ]
    · rw [dif_neg h, BitVec.getLsbD_or, BitVec.getLsbD_shiftLeft, BitVec.getLsbD_setWidth]
      by_cases h' : i / 8 = bs.length
      · have hl : (b :: bs).length - 1 - i / 8 = 0 := by simp; omega
        rw [dif_pos (by simp; omega)]
        simp only [hl, List.getElem_cons_zero, show i - 8 * bs.length = i % 8 by omega]
        have : i % 8 < 8 := by omega
        simp [this, show i % 8 < 128 by omega]
      · rw [dif_neg (by simp; omega), BitVec.getLsbD_of_ge b _ (by omega)]
        simp [show ¬ i - 8 * bs.length < 8 by omega, show i - 8 * bs.length < 128 by omega,
          -BitVec.getLsbD_eq_getElem, show i - 8 * bs.length - 8 = i - 8 * (bs.length + 1) by omega]

/-- Bit `i` of the 128-bit numbering is bit `i mod 8` of byte `15 - i / 8` (42 R150). -/
theorem regBits_getLsbD (v : Reg16) (i : Nat) (hi : i < 128) :
    (regBits v).getLsbD i = (v[15 - i / 8]'(by omega)).getLsbD (i % 8) := by
  unfold regBits
  rw [foldl_bytes_getLsbD _ _ _ hi, dif_pos (by simp; omega)]
  simp

/-- A field of the numbering, bit by bit. -/
theorem regBits_field_getLsbD (v : Reg16) (k w i : Nat) (h : i < w) (hk : k + w ≤ 128) :
    ((regBits v).extractLsb' k w).getLsbD i =
      (v[15 - (k + i) / 8]'(by omega)).getLsbD ((k + i) % 8) := by
  rw [BitVec.getLsbD_extractLsb']
  simp [h, regBits_getLsbD v (k + i) (by omega)]

end Sys2Proof.Machine
end

