-- ==== Sys2Proof/Laws/Script.lean ====
section
/-! SUPPORT. A scripted card (20_memory R59): what the bus operations receive from it and what is left
of its script. -/

namespace Sys2Proof.Machine.Bus

/-- Idle clocking over a script drops as many bytes. -/
theorem idle_script (junk rest : List Byte) (t : List BusEvent) :
    idle junk.length ⟨t, .script (junk ++ rest)⟩ =
      ⟨t ++ junk.map (BusEvent.xchg idleByte), .script rest⟩ := by
  induction junk generalizing t with
  | nil => simp
  | cons i is ih => simp [idle_succ, ih]

/-- Receiving over a script gives its bytes. -/
theorem recv_script (is rest : List Byte) (t : List BusEvent) :
    recv is.length ⟨t, .script (is ++ rest)⟩ =
      (is, ⟨t ++ is.map (BusEvent.xchg idleByte), .script rest⟩) := by
  induction is generalizing t with
  | nil => simp [recv]
  | cons i is ih => simp [recv, ih]

/-- A register over a script is its bytes. -/
theorem recvReg_script {n : Nat} (v : Vector Byte n) (rest : List Byte) (t : List BusEvent) :
    recvReg n ⟨t, .script (v.toList ++ rest)⟩ =
      (v, ⟨t ++ v.toList.map (BusEvent.xchg idleByte), .script rest⟩) := by
  obtain ⟨h1, h2⟩ := recvReg_spec n ⟨t, .script (v.toList ++ rest)⟩
  have hr := recv_script v.toList rest t
  have hi := idle_script v.toList rest t
  rw [Vector.length_toList] at hr hi
  rw [hr] at h1
  rw [hi] at h2
  exact Prod.ext (Vector.toList_inj.1 h1) h2

/-- Sending over a script drops one byte for each byte sent. -/
theorem sendAll_script (os is rest : List Byte) (t : List BusEvent) (h : os.length = is.length) :
    sendAll os ⟨t, .script (is ++ rest)⟩ =
      ⟨t ++ List.zipWith BusEvent.xchg os is, .script rest⟩ := by
  induction os generalizing t is with
  | nil => cases is <;> simp_all
  | cons o os ih =>
    cases is with
    | nil => simp at h
    | cons i is => simp [ih is _ (by simpa using h)]

/-- `SendCommand` with a card that answers `r` at the first poll. -/
theorem command_script (idx : CmdIndex) (arg : Arg) (junk rest : List Byte) (r : Byte)
    (t : List BusEvent) (hj : junk.length = 7) (hr : r ≠ idleByte) :
    command idx arg ⟨t, .script (junk ++ r :: rest)⟩ =
      (r, ⟨t ++ List.zipWith BusEvent.xchg (idleByte :: frame idx arg) junk ++ [.xchg idleByte r],
        .script rest⟩) := by
  have hs := sendAll_script (idleByte :: frame idx arg) junk (r :: rest) t
    (by simp [frame_length, hj])
  rw [sendAll_cons] at hs
  unfold command
  rw [hs]
  exact if_pos hr

/-- An exhausted script answers 0xFF for ever. -/
theorem idle_exhausted (n : Nat) (t : List BusEvent) :
    idle n ⟨t, .script []⟩ = ⟨t ++ List.replicate n (.xchg idleByte 0xFF), .script []⟩ := by
  induction n generalizing t with
  | zero => simp
  | succ n ih => rw [idle_succ, send_script_nil, ih]; simp [List.replicate_succ]

end Sys2Proof.Machine.Bus
end

