-- ==== Sys2Proof/Laws/Step.lean ====
section
/-! SUPPORT. Every way a step can have a next state. -/

namespace Sys2Proof.Machine

/-- A step with a next state is the idle step, or it ran one host operation, or one engine-side word. -/
theorem step_cases {s t : State} (h : step s = .next t) :
    (s.microPort = [] ∧ s.hostPort = [] ∧ t = s) ∨
    (∃ i rest, s.microPort = [] ∧ decode s.cfg s.hostPort = .ok (i, rest) ∧ i.isHostOp = true ∧
      exec i { s with hostPort := rest } = .next t) ∨
    (∃ i rest, s.microPort ≠ [] ∧ decode s.cfg s.microPort = .ok (i, rest) ∧ i.isHostOp = false ∧
      exec i { s with microPort := rest } = .next t) := by
  unfold step at h
  split at h
  · rename_i hf
    unfold State.fetch at hf
    split at hf
    · cases hf
    · split at hf
      · cases hf
      · cases h
        exact .inl ⟨by simpa using ‹¬ s.microPort ≠ []›, by simpa using ‹¬ s.hostPort ≠ []›, rfl⟩
  · cases h
  · rename_i i u hf
    unfold State.fetch at hf
    split at hf
    · rename_i h1
      simp only [Option.some.injEq, State.fetchMicro] at hf
      split at hf
      · cases hf
      · rename_i hd
        split at hf
        · cases hf
        · rename_i hh
          cases hf
          exact .inr (.inr ⟨_, _, h1, hd, by simpa using hh, h⟩)
    · rename_i h1
      split at hf
      · simp only [Option.some.injEq, State.fetchHost] at hf
        split at hf
        · cases hf
        · rename_i hd
          split at hf
          · rename_i hh
            cases hf
            exact .inr (.inl ⟨_, _, by simpa using h1, hd, hh, h⟩)
          · cases hf
      · cases hf

end Sys2Proof.Machine
end

