-- ==== Sys2Proof/Laws/Transfer.lean ====
section
/-! SUPPORT. The Transfer Engine: for each operation, one lemma that says every way it can go, with
the conditions, and the events of its trailer and of its close. -/

namespace Sys2Proof.Machine.State

/-- The trailer of a read: the bus and `S.lastCrc16` change (44_transfer R203, R206). -/
theorem readTrailer_spec (s : State) :
    ∃ (hi lo : Byte) (b : Bus), b.trace = s.bus.trace ++ ReadTrailerEvents hi lo ∧
      s.readTrailer = { s with bus := b, lastCrc16 := joinTrailer hi lo } :=
  ⟨_, _, _, by simp [ReadTrailerEvents], rfl⟩

/-- The trailer of a write: the bus, `S.lastCrc16` and `S.lastDataResp` change (44_transfer R204,
R207). -/
theorem writeTrailer_spec (s : State) (crc : Half) :
    ∃ (g1 g2 resp : Byte) (b : Bus), b.trace = s.bus.trace ++ WriteTrailerEvents crc g1 g2 resp ∧
      s.writeTrailer crc = { s with bus := b, lastCrc16 := crc, lastDataResp := resp } :=
  ⟨(s.bus.xchg (hiByte crc)).1, ((s.bus.send (hiByte crc)).xchg (loByte crc)).1,
    (((s.bus.send (hiByte crc)).send (loByte crc)).xchg idleByte).1, _,
    by simp [WriteTrailerEvents, hiByte, loByte], rfl⟩

/-- The close of a transfer: the bus, `S.lastR1`, the line and the transfer change (44_transfer
R205). -/
theorem closeTransfer_spec (s : State) (dir : Dir) :
    ∃ (r : Byte) (ev : List BusEvent) (b : Bus), CloseEvents s.cfg dir r ev ∧
      b.trace = s.bus.trace ++ ev ∧
      s.closeTransfer dir = { s with bus := b, lastR1 := r, cs := false, xfer := none } := by
  cases dir with
  | read =>
    obtain ⟨r, e2, b2, h2, t2, x2⟩ := s.command_spec s.cfg.idxEndRead 0
    obtain ⟨e3, b3, h3, t3, x3⟩ := (s.command s.cfg.idxEndRead 0).releaseSeq_spec
    rw [x2] at h3 t3
    exact ⟨r, e2 ++ e3, b3, ⟨[], e2, e3, rfl, ⟨rfl, h2⟩, h3⟩, by rw [t3, t2, List.append_assoc],
      by simp only [closeTransfer]; rw [x3, x2]; rfl⟩
  | write =>
    obtain ⟨e1, b1, h1, t1, x1⟩ := s.waitBusy_spec
    obtain ⟨r, e2, b2, h2, t2, x2⟩ := s.waitBusy.command_spec s.cfg.idxEndWrite 0
    obtain ⟨e3, b3, h3, t3, x3⟩ := (s.waitBusy.command s.cfg.idxEndWrite 0).releaseSeq_spec
    rw [x1] at t2
    rw [x2, x1] at h3 t3
    exact ⟨r, e1 ++ e2 ++ e3, b3, ⟨e1, e2, e3, rfl, ⟨h1, h2⟩, h3⟩,
      by rw [t3, t2, t1, List.append_assoc, List.append_assoc, List.append_assoc],
      by simp only [closeTransfer]; rw [x3, x2, x1]; rfl⟩

/-- Every way `BEGIN_TRANSFER` can go (44_transfer R196, R215). -/
theorem beginTransfer_cases (dir : Dir) (gran : Gran) (addr : Arg) (s : State) :
    let p := s.selectSeq.command (beginIndex s.cfg dir gran) addr
    let opened : Option Xfer := some { dir, gran, subOpen := false }
    (s.active = false ∧ s.beginTransfer dir gran addr = (.notActive, s)) ∨
    (s.active = true ∧ s.xfer ≠ none ∧ s.beginTransfer dir gran addr = (.seqError, s)) ∨
    (s.active = true ∧ s.xfer = none ∧
      ((p.lastR1 = idleByte ∧ s.beginTransfer dir gran addr = (.cmdNoResponse, p.releaseSeq)) ∨
      (p.lastR1 ≠ idleByte ∧ p.lastR1 ≠ r1Ready ∧
        s.beginTransfer dir gran addr = (.cmdRejected, p.releaseSeq)) ∨
      (p.lastR1 = r1Ready ∧ gran = .multi ∧
        s.beginTransfer dir gran addr = (.ok, p.setXfer opened)) ∨
      (p.lastR1 = r1Ready ∧ gran = .single ∧ dir = .write ∧
        s.beginTransfer dir gran addr =
          (.ok, (p.onBus (Bus.send tokenStart)).setXfer opened)) ∨
      (p.lastR1 = r1Ready ∧ gran = .single ∧ dir = .read ∧ p.waitToken.1 = true ∧
        s.beginTransfer dir gran addr = (.ok, p.waitToken.2.setXfer opened)) ∨
      (p.lastR1 = r1Ready ∧ gran = .single ∧ dir = .read ∧ p.waitToken.1 = false ∧
        s.beginTransfer dir gran addr = (.tokenTimeout, p.waitToken.2.releaseSeq)))) := by
  intro p opened
  by_cases ha : s.active = false
  · exact .inl ⟨ha, by simp [beginTransfer, ha]⟩
  by_cases hx : s.xfer = none
  · refine .inr (.inr ⟨by simpa using ha, hx, ?_⟩)
    have hb : s.beginTransfer dir gran addr =
        if p.lastR1 = idleByte then (.cmdNoResponse, p.releaseSeq)
        else if p.lastR1 ≠ r1Ready then (.cmdRejected, p.releaseSeq)
        else p.beginData dir gran := by
      unfold beginTransfer
      rw [if_neg ha, if_neg (not_not.2 hx)]
      rfl
    by_cases h1 : p.lastR1 = idleByte
    · exact .inl ⟨h1, by rw [hb, if_pos h1]⟩
    by_cases h2 : p.lastR1 = r1Ready
    · rw [if_neg h1, if_neg (not_not.2 h2)] at hb
      refine .inr (.inr ?_)
      rcases gran with _ | _
      · rcases dir with _ | _
        · by_cases hw : p.waitToken.1 = true
          · exact .inr (.inr (.inl ⟨h2, rfl, rfl, hw, by rw [hb]; exact if_pos hw⟩))
          · exact .inr (.inr (.inr ⟨h2, rfl, rfl, by simpa using hw, by rw [hb]; exact if_neg hw⟩))
        · exact .inr (.inl ⟨h2, rfl, rfl, hb⟩)
      · exact .inl ⟨h2, rfl, hb⟩
    · exact .inr (.inl ⟨h1, h2, by rw [hb, if_neg h1, if_pos h2]⟩)
  · exact .inr (.inl ⟨by simpa using ha, hx, by simp [beginTransfer, ha, hx]⟩)

/-- `START_SUB_BLOCK` of a multi-block write with no open sub-block (44_transfer R199). -/
theorem startSubBlock_write (s : State)
    (h : s.xfer = some { dir := .write, gran := .multi, subOpen := false }) :
    s.startSubBlock = (.ok, (s.waitBusy.onBus (Bus.send tokenMultiStart)).setXfer
      (some { dir := .write, gran := .multi, subOpen := true })) := by
  simp [startSubBlock, h]

/-- `START_SUB_BLOCK` of a multi-block read with no open sub-block (44_transfer R200). -/
theorem startSubBlock_read (s : State)
    (h : s.xfer = some { dir := .read, gran := .multi, subOpen := false }) :
    s.startSubBlock =
      if s.waitToken.1 then
        (.ok, s.waitToken.2.setXfer (some { dir := .read, gran := .multi, subOpen := true }))
      else (.tokenTimeout, s.waitToken.2.abort) := by
  simp [startSubBlock, h]

/-- `START_SUB_BLOCK` in any other state (44_transfer R198). -/
theorem startSubBlock_refused (s : State)
    (h : ∀ dir, s.xfer ≠ some { dir, gran := .multi, subOpen := false }) :
    s.startSubBlock = (.seqError, s) := by
  unfold startSubBlock
  split
  · exact absurd ‹_› (h .write)
  · exact absurd ‹_› (h .read)
  · rfl

/-- `STOP_SUB_BLOCK` with an open sub-block (44_transfer R203, R204). -/
theorem stopSubBlock_open (s : State) (crc : Half) (dir : Dir)
    (h : s.xfer = some { dir, gran := .multi, subOpen := true }) :
    s.stopSubBlock crc =
      (.ok, (s.trailer dir crc).setXfer (some { dir, gran := .multi, subOpen := false })) := by
  simp [stopSubBlock, h]

/-- `STOP_SUB_BLOCK` in any other state. -/
theorem stopSubBlock_refused (s : State) (crc : Half)
    (h : ∀ dir, s.xfer ≠ some { dir, gran := .multi, subOpen := true }) :
    s.stopSubBlock crc = (.seqError, s) := by
  unfold stopSubBlock
  split
  · exact absurd ‹_› (h _)
  · rfl

/-- `END_TRANSFER` of a single-block transfer (44_transfer R206, R207). -/
theorem endTransfer_single (s : State) (crc : Half) (dir : Dir) (o : Bool)
    (h : s.xfer = some { dir, gran := .single, subOpen := o }) :
    s.endTransfer crc = (.ok, (s.trailer dir crc).closeTransfer dir) := by
  simp [endTransfer, h]

/-- `END_TRANSFER` of a multi-block transfer with no open sub-block (44_transfer R205). -/
theorem endTransfer_multi (s : State) (crc : Half) (dir : Dir)
    (h : s.xfer = some { dir, gran := .multi, subOpen := false }) :
    s.endTransfer crc = (.ok, s.closeTransfer dir) := by
  simp [endTransfer, h]

/-- `END_TRANSFER` without a transfer, or inside a sub-block (44_transfer R190). -/
theorem endTransfer_refused (s : State) (crc : Half)
    (h : s.xfer = none ∨ ∃ dir, s.xfer = some { dir, gran := .multi, subOpen := true }) :
    s.endTransfer crc = (.seqError, s) := by
  rcases h with h | ⟨dir, h⟩ <;> simp [endTransfer, h]

/-- `XFER_BYTE` during a transfer (44_transfer R202). -/
theorem xferByte_some (s : State) (out : Byte) (h : s.xfer ≠ none) :
    s.xferByte out = (s.onBus (Bus.send out)).respond .ok (.byte (s.bus.xchg out).1) := by
  unfold xferByte
  split
  · contradiction
  · rfl

/-- `XFER_BYTE` without a transfer. -/
theorem xferByte_none (s : State) (out : Byte) (h : s.xfer = none) :
    s.xferByte out = s.respond .seqError (.byte 0) := by
  simp [xferByte, h, refuse]

end Sys2Proof.Machine.State
end

