-- ==== Sys2Proof/Tests/Slice0.lean ====
section
/-! SUPPORT. Tests. Expected values are the spec's: the vectors V1 to V75 and the programs of
spec/95_test_vectors.md, and words written out from the encodings of spec/30_encoding.md. The
witness theorems give, for each obligation with hypotheses, a state and operands that meet them. -/

namespace Sys2Proof.Tests.Slice0

/- One theorem at a time: each theorem checked in the background takes a thread with a large stack,
and some forty of them at once pass the memory limit of the check. -/
set_option Elab.async false

open Sys2Proof Sys2Proof.Machine

/-! Helpers. -/

/-- The next state, if there is one. -/
def nextOf (o : Host.Outcome State Fault Refusal) : Option State :=
  match o with
  | .next s => some s
  | .fault _ => none
  | .refused _ => none

/-- The refusal, if there is one. -/
def refusalIn (o : Host.Outcome State Fault Refusal) : Option Refusal :=
  match o with
  | .next _ => none
  | .fault _ => none
  | .refused r => some r

/-- Status and value of the response after one instruction. -/
def answer (i : Instr) (s : State) : Option (Status × Value) :=
  (nextOf (exec i s)).bind fun t => t.response.map fun r => (r.status, r.value)

/-- The events one instruction appends to an empty trace. -/
def events (i : Instr) (s : State) : Option (List BusEvent) :=
  (nextOf (exec i s)).map (·.bus.trace)

/-- What one instruction leaves, in a form that is compared whole. -/
structure Seen where
  status : Option Status
  xfer : Option Xfer
  cs : Bool
  lastR1 : Byte
  lastCrc16 : Half
  lastDataResp : Byte
  exchanges : Nat
  delays : Nat
  card : Card
  deriving DecidableEq, Repr

/-- What `i` leaves of `s`. -/
def seen (i : Instr) (s : State) : Option Seen :=
  (nextOf (exec i s)).map fun t =>
    { status := t.response.map (·.status), xfer := t.xfer, cs := t.cs, lastR1 := t.lastR1,
      lastCrc16 := t.lastCrc16, lastDataResp := t.lastDataResp, exchanges := exchanges t.bus.trace,
      delays := delays t.bus.trace, card := t.bus.card }

/-- `n` bytes 0xFF. -/
def ff (n : Nat) : List Byte := List.replicate n 0xFF

/-- The reset state with a scripted card. -/
def onCard (is : List Byte) : State := { State.reset with bus := { trace := [], card := .script is } }

/-- The same with the card selected. -/
def selectedCard (is : List Byte) : State := { onCard is with cs := true }

/-- An active session with no transfer, and a scripted card. -/
def active (is : List Byte) : State :=
  { onCard is with resetAck := true, initAck := true, blkLenOk := true, active := true }

/-- An active session with a transfer in flight. -/
def inFlight (d : Dir) (g : Gran) (o : Bool) (is : List Byte) : State :=
  { active is with cs := true, xfer := some { dir := d, gran := g, subOpen := o } }

/-- The CID of V34. -/
def cid1 : Reg16 :=
  #v[0x03, 0x53, 0x44, 0x53, 0x55, 0x30, 0x34, 0x47, 0x80, 0x12, 0x34, 0x56, 0x78, 0x01, 0x4A, 0x69]

/-- The CSD of V36. -/
def csd1 : Reg16 :=
  #v[0x40, 0x0E, 0x00, 0x32, 0x5B, 0x59, 0x00, 0x00, 0x1D, 0x69, 0x7F, 0x80, 0x0A, 0x40, 0x00, 0x8B]

/-- The CSD of V38. -/
def csd0 : Reg16 :=
  #v[0x00, 0x26, 0x00, 0x32, 0x5F, 0x59, 0x83, 0xC8, 0xAD, 0xDB, 0xCF, 0xFF, 0xD2, 0x40, 0x40, 0xA5]

/-- An active session that holds a CSD. -/
def withCsd (v : Reg16) : State := { active [] with csd := v }

/-! Well-formedness. -/

theorem test_wf_refuses_a_short_buffer :
    Instr.wf (.writeBlock 0 (List.replicate 511 0)) = false := by decide +kernel

theorem test_wf_refuses_a_long_buffer :
    Instr.wf (.writeBlock 0 (List.replicate 513 0)) = false := by decide +kernel

theorem test_wf_accepts_512_bytes :
    Instr.wf (.writeBlock 0 (List.replicate 512 0)) = true := by decide +kernel

/-! Decoding: each constructor by a word written out from its encoding. -/

/-- The first instruction of some bytes under the default configuration. -/
def first (bs : List Byte) : Option Instr :=
  match decode Cfg.default bs with
  | .ok (i, _) => some i
  | .error _ => none

/-- The error of some bytes. -/
def errorOf (bs : List Byte) : Option DecodeError :=
  match decode Cfg.default bs with
  | .ok _ => none
  | .error e => some e

/-- 30_encoding R84, R87: the operations without operands. -/
theorem test_decode_operations_without_operands :
    first [0x00] = some .isActive ∧ first [0x01] = some .initializeCard ∧
    first [0x02] = some .capacityBytes ∧ first [0x03] = some .getCid ∧
    first [0x04] = some .getCsd ∧ first [0x08] = some .startSubBlock ∧
    first [0x0E] = some .reservedE ∧ first [0x0F] = some .reservedF := by decide +kernel

/-- 30_encoding R84, R85, R83: the operations with operands. -/
theorem test_decode_operations_with_operands :
    first [0x05, 0x12, 0x34, 0x56, 0x78] = some (.readBlock 0x12345678) ∧
    first ([0x06, 0, 0, 2, 0] ++ List.replicate 512 0xA5) =
      some (.writeBlock 0x200 (List.replicate 512 0xA5)) ∧
    first [0x07, 1, 0, 0, 2, 0] = some (.beginTransfer .write .single 0x200) ∧
    first [0x07, 2, 0, 0, 2, 0] = some (.beginTransfer .read .multi 0x200) ∧
    first [0x09, 0x7F, 0xA1] = some (.stopSubBlock 0x7FA1) ∧
    first [0x0A, 0x40, 0xDA] = some (.endTransfer 0x40DA) ∧
    first [0x0B, 0xA5] = some (.xferByte 0xA5) ∧
    first [0x0C, 0x55, 1, 0xAA, 1, 0x55, 0] = some (.crc7 0x55 [0xAA, 0x55]) ∧
    first [0x0D, 0xFF, 0xFE, 1, 0x31, 0] = some (.crc16 0xFFFE [0x31]) := by decide +kernel

/-- The frames of 95_test_vectors 2.3 that have a row with every bit fixed. -/
theorem test_decode_fixed_frames :
    first [0x40, 0, 0, 0, 0, 0x95] = some .cmdReset ∧ first [0x41, 0, 0, 0, 0, 0xF9] = some .cmdMmcInit ∧
    first [0x77, 0, 0, 0, 0, 0x65] = some .cmdAppPrefix ∧
    first [0x69, 0x40, 0, 0, 0, 0x77] = some .cmdSdcInit ∧
    first [0x50, 0, 0, 2, 0, 0x15] = some .cmdSetBlocklen ∧
    first [0x4A, 0, 0, 0, 0, 0x1B] = some .cmdReadCid ∧
    first [0x49, 0, 0, 0, 0, 0xAF] = some .cmdReadCsd ∧
    first [0x4C, 0, 0, 0, 0, 0x61] = some .cmdEndRead := by decide +kernel

/-- `CMD_END_WRITE` has a word of its own where `IDX_END_WRITE` differs from `IDX_END_READ` (00_scope
R11 leaves it open); here it is 13, and its word is 0x4D with the CRC7 of its head. -/
theorem test_decode_end_write_with_its_own_index :
    let c : Cfg := { Cfg.default with idxEndWrite := 13 }
    (match decode c [0x4D, 0, 0, 0, 0, crc7 0 [0x4D, 0, 0, 0, 0]] with
      | .ok (i, _) => some i
      | .error _ => none) = some .cmdEndWrite := by decide +kernel

/-- The frames of 95_test_vectors 2.3 with an address, and the extreme of the format. -/
theorem test_decode_address_frames :
    first [0x51, 0xFF, 0xFF, 0xFE, 0, 0x9B] = some (.cmdReadSingle 0xFFFFFE00) ∧
    first [0x52, 0, 0, 4, 0, 0xB9] = some (.cmdReadMulti 0x400) ∧
    first [0x58, 0, 0, 2, 0, 0x43] = some (.cmdWriteSingle 0x200) ∧
    first [0x59, 0x12, 0x34, 0x56, 0, 0x05] = some (.cmdWriteMulti 0x12345600) ∧
    first [0x7F, 0xFF, 0xFF, 0xFF, 0xFF, 0x19] = some (.frame 63 0xFFFFFFFF) ∧
    first [0x69, 0, 0, 0, 0, 0xE5] = some (.frame 41 0) := by decide +kernel

/-- 30_encoding R75, R80. -/
theorem test_decode_tokens :
    first [0xFE] = some .tokenStartSingle ∧ first [0xFC] = some .tokenStartMultiWrite ∧
    first [0xFD] = some .tokenStopMultiWrite ∧ first [0xFF] = some .byteIdle := by decide +kernel

theorem test_decode_rejects_by_name :
    errorOf [] = some .noWord ∧ errorOf [0x10] = some (.reservedByte 0x10) ∧
    errorOf [0xFB] = some (.reservedByte 0xFB) ∧ errorOf [0x07, 4, 0, 0, 0, 0] = some (.badMode 4) ∧
    errorOf [0x40, 0, 0, 0, 0, 0x94] = some (.badStopBit 0x94) ∧
    errorOf [0x09, 0x7F] = some .truncated ∧ errorOf [0x0C, 0, 2] = some (.badMarker 2) := by
  decide +kernel

/-! The step. -/

theorem test_step_runs_a_fetched_word :
    (nextOf (step (State.reset.withFetchWord 8 0x00))).bind (·.response) =
      some { status := .ok, value := .flag false, lastR1 := 0xFF, lastCrc16 := 0, lastDataResp := 0xFF } ∧
    (nextOf (step ((onCard [0x3C]).withFetchWord 8 0xFF))).map (·.bus.trace) =
      some [.xchg 0xFF 0x3C] := by decide +kernel

theorem test_step_runs_a_fetched_frame :
    (nextOf (step ((onCard (ff 7 ++ [0x01])).withFetchWord 48 0x400000000095))).map (·.lastR1) =
      some 0x01 ∧
    (nextOf (step ((onCard []).withFetchWord 8 0xFE))).map (·.bus.trace) =
      some [.sel, .xchg 0xFE 0xFF] := by decide +kernel

/-- 20_memory R62: with the card released no command byte goes on the bus; an idle byte does. -/
theorem test_released_card :
    refusalIn (exec .cmdReset (onCard [])) = some .cardReleased ∧
    refusalIn (exec .tokenStartSingle (onCard [])) = some .cardReleased ∧
    events .byteIdle (onCard []) = some [.xchg 0xFF 0xFF] := by decide +kernel

theorem test_step_refuses_by_name :
    refusalIn (step { State.reset with hostPort := [0x20] }) =
      some (.undecodable (.reservedByte 0x20)) ∧
    refusalIn (step { State.reset with hostPort := [0xFE] }) =
      some (.notHostOperation .tokenStartSingle) ∧
    refusalIn (step { State.reset with microPort := [0x00] }) =
      some (.notMicroWord .isActive) := by decide +kernel

/-! The CRC Engine: V1 to V24, V29. -/

theorem test_crc7_vectors :
    crc7 0x00 [] = 0x01 ∧ crc7 0x80 [] = 0x01 ∧ crc7 0xFF [] = 0xFF ∧
    crc7 0 [0x40, 0, 0, 0, 0] = 0x95 ∧
    crc7 0 [0x31, 0x32, 0x33, 0x34, 0x35, 0x36, 0x37, 0x38, 0x39] = 0xEB ∧
    crc7 0x55 [0xAA, 0x55] = 0xA1 ∧ crc7 0x6D [0, 0, 0] = 0x95 := by decide +kernel

theorem test_crc16_vectors :
    crc16 0x1234 [] = 0x1234 ∧ crc16 0 [0xA5] = 0xE54F ∧ crc16 0 [0x01, 0x02] = 0x1373 ∧
    crc16 0x1021 [0x02] = 0x1373 ∧
    crc16 0xFFFF [0x31, 0x32, 0x33, 0x34, 0x35, 0x36, 0x37, 0x38, 0x39] = 0x29B1 ∧
    crc16 0 [0x31, 0x32, 0x33, 0x34, 0x35, 0x36, 0x37, 0x38, 0x39, 0x31, 0xC3] = 0 := by decide +kernel

/-- V35. -/
theorem test_crc7_of_a_cid :
    answer (.crc7 0 (cid1.toList.take 15)) State.reset = some (.ok, .byte 0x69) := by decide +kernel

theorem test_exec_crc16 : answer (.crc16 0 [0x80]) State.reset = some (.ok, .half 0x9188) := by
  decide +kernel

/-! `SendCommand`: V30 to V33. -/

theorem test_command_first_and_last_poll :
    events .cmdReset (selectedCard (ff 7 ++ [0x01])) =
      some [.xchg 0xFF 0xFF, .xchg 0x40 0xFF, .xchg 0 0xFF, .xchg 0 0xFF, .xchg 0 0xFF, .xchg 0 0xFF,
        .xchg 0x95 0xFF, .xchg 0xFF 0x01] ∧
    (nextOf (exec .cmdReset (selectedCard (ff 22 ++ [0x05])))).map (fun t => (t.lastR1, t.bus.trace.length)) =
      some (0x05, 23) := by decide +kernel

theorem test_command_no_response_and_ignored_bytes :
    (nextOf (exec (.frame 0 0) (selectedCard (ff 23 ++ [0x00])))).map
      (fun t => (t.lastR1, t.bus.trace.length, t.bus.card)) = some (0xFF, 23, .script [0x00]) ∧
    (nextOf (exec .cmdReset (selectedCard (List.replicate 7 0x00 ++ [0xFF, 0x80])))).map (·.lastR1) =
      some 0x80 := by decide +kernel

/-- Each command row sends its own frame (95_test_vectors 2.3). -/
theorem test_command_rows_send_their_frames :
    let sent (i : Instr) : Option (List Byte) := (events i (selectedCard [])).map fun ev =>
      (ev.take 7).map fun e => match e with
        | .xchg o _ => o
        | .sel => 0
        | .desel => 0
        | .dly _ => 0
    sent .cmdMmcInit = some [0xFF, 0x41, 0, 0, 0, 0, 0xF9] ∧
    sent .cmdAppPrefix = some [0xFF, 0x77, 0, 0, 0, 0, 0x65] ∧
    sent .cmdSdcInit = some [0xFF, 0x69, 0x40, 0, 0, 0, 0x77] ∧
    sent .cmdSetBlocklen = some [0xFF, 0x50, 0, 0, 2, 0, 0x15] ∧
    sent .cmdReadCid = some [0xFF, 0x4A, 0, 0, 0, 0, 0x1B] ∧
    sent .cmdReadCsd = some [0xFF, 0x49, 0, 0, 0, 0, 0xAF] ∧
    sent .cmdEndRead = some [0xFF, 0x4C, 0, 0, 0, 0, 0x61] ∧
    sent .cmdEndWrite = some [0xFF, 0x4C, 0, 0, 0, 0, 0x61] ∧
    sent (.cmdReadSingle 0x200) = some [0xFF, 0x51, 0, 0, 2, 0, 0x79] ∧
    sent (.cmdReadMulti 0x400) = some [0xFF, 0x52, 0, 0, 4, 0, 0xB9] ∧
    sent (.cmdWriteSingle 0x200) = some [0xFF, 0x58, 0, 0, 2, 0, 0x43] ∧
    sent (.cmdWriteMulti 0x400) = some [0xFF, 0x59, 0, 0, 4, 0, 0x5B] := by decide +kernel

theorem test_tokens_send_their_byte :
    events .tokenStartSingle (selectedCard [0x11]) = some [.xchg 0xFE 0x11] ∧
    events .tokenStartMultiWrite (selectedCard [0x11]) = some [.xchg 0xFC 0x11] ∧
    events .byteIdle (onCard [0x11]) = some [.xchg 0xFF 0x11] ∧
    events .tokenStopMultiWrite (inFlight .write .multi false [0x11]) = some [.xchg 0xFD 0x11] := by
  decide +kernel

/-! The Register Decoder: V34 to V49. -/

/-- V34. -/
theorem test_get_cid :
    answer .getCid { active [] with cid := cid1 } =
      some (.ok, .cid {
        mid := 0x03, oid := #v[0x53, 0x44], pnm := #v[0x53, 0x55, 0x30, 0x34, 0x47],
        prvMajor := 8, prvMinor := 0, psn := 0x12345678, mdtYear := 0x14, mdtMonth := 0xA,
        crc7 := 0x34, stop := 1 }) := by decide +kernel

/-- V36, V38, V47. -/
theorem test_get_csd :
    answer .getCsd (withCsd csd1) = some (.ok, .csd (.highCapacity 0x001D69)) ∧
    answer .getCsd (withCsd csd0) = some (.ok, .csd (.legacy 9 0xF22 7)) ∧
    answer .getCsd (withCsd #v[0x80, 0, 0, 0, 0, 0, 0, 0, 0, 0, 0, 0, 0, 0, 0, 0x89]) =
      some (.ok, .csd (.unknown 2)) := by decide +kernel

/-- V37, V39, V40, V41, V43. -/
theorem test_capacity :
    answer .capacityBytes (withCsd csd1) = some (.ok, .bytes 3947888640) ∧
    answer .capacityBytes (withCsd csd0) = some (.ok, .bytes 1015808000) ∧
    answer .capacityBytes
      (withCsd #v[0, 0, 0, 0, 0, 9, 3, 0xFF, 0xC0, 1, 0x80, 0, 0, 0, 0, 0xFB]) =
        some (.ok, .bytes 67108864) ∧
    answer .capacityBytes (withCsd
      #v[0x40, 0, 0, 0, 0, 0, 0, 0x3F, 0xFF, 0xFF, 0, 0, 0, 0, 0, 0x5F]) =
        some (.ok, .bytes 2199023255552) ∧
    answer .capacityBytes (withCsd ((Vector.replicate 16 0xFF).set 0 0x3F)) =
      some (.ok, .bytes 68719476736) := by decide +kernel

/-- V44, V45, V46, V48. -/
theorem test_capacity_corners :
    answer .capacityBytes (withCsd ((Vector.replicate 16 0xFF).set 0 0x7F)) =
      some (.ok, .bytes 2199023255552) ∧
    answer .capacityBytes (withCsd ((Vector.replicate 16 0x00).set 0 0x80)) =
      some (.decodeFail, .bytes 0) ∧
    answer .capacityBytes (withCsd ((Vector.replicate 16 0xFF).set 0 0xC0)) =
      some (.decodeFail, .bytes 0) ∧
    answer .capacityBytes (withCsd (Vector.replicate 16 0x00)) = some (.ok, .bytes 4) := by
  decide +kernel

/-! Refusals: V49 to V65. -/

theorem test_refusals_after_reset :
    answer (.beginTransfer .read .single 0) State.reset = some (.notActive, .none) ∧
    answer (.readBlock 0) State.reset = some (.notActive, .block (List.replicate 512 0)) ∧
    answer .startSubBlock State.reset = some (.seqError, .none) ∧
    answer (.xferByte 0) State.reset = some (.seqError, .byte 0) ∧
    answer (.endTransfer 0) State.reset = some (.seqError, .none) ∧
    answer .isActive State.reset = some (.ok, .flag false) ∧
    answer .reservedE State.reset = some (.badOp, .none) ∧
    answer .reservedF State.reset = some (.badOp, .none) := by decide +kernel

theorem test_refusals_during_a_transfer :
    answer (.beginTransfer .read .single 0) (inFlight .write .multi false []) =
      some (.seqError, .none) ∧
    answer .initializeCard (inFlight .write .multi false []) = some (.seqError, .none) ∧
    answer (.stopSubBlock 0) (inFlight .write .multi false []) = some (.seqError, .none) ∧
    answer .startSubBlock (inFlight .write .multi true []) = some (.seqError, .none) ∧
    answer (.endTransfer 0) (inFlight .write .multi true []) = some (.seqError, .none) ∧
    answer .startSubBlock (inFlight .read .single false []) = some (.seqError, .none) ∧
    answer (.stopSubBlock 0) (inFlight .read .single false []) = some (.seqError, .none) := by
  decide +kernel

/-! Transfers: V66 to V75 and the worked examples of 44_transfer. -/

/-- V67. -/
theorem test_begin_rejected :
    events (.beginTransfer .write .single 0x201) (active (ff 9 ++ [0x20])) =
      some [.xchg 0xFF 0xFF, .xchg 0xFF 0xFF, .sel, .xchg 0xFF 0xFF, .xchg 0x58 0xFF, .xchg 0 0xFF,
        .xchg 0 0xFF, .xchg 2 0xFF, .xchg 1 0xFF, .xchg 0x51 0xFF, .xchg 0xFF 0x20, .xchg 0xFF 0xFF,
        .desel] ∧
    answer (.beginTransfer .write .single 0x201) (active (ff 9 ++ [0x20])) =
      some (.cmdRejected, .none) := by decide +kernel

/-- V66. -/
theorem test_begin_no_response :
    seen (.beginTransfer .read .single 0) (active []) =
      some {
        status := some .cmdNoResponse, xfer := none, cs := false, lastR1 := 0xFF, lastCrc16 := 0,
        lastDataResp := 0xFF, exchanges := 26, delays := 0, card := .script [] } := by decide +kernel

/-- V68. -/
theorem test_begin_no_token :
    seen (.beginTransfer .read .single 0)
        { active (ff 9 ++ [0x00]) with cfg := { Cfg.default with tokenAttempts := 2 } } =
      some {
        status := some .tokenTimeout, xfer := none, cs := false, lastR1 := 0x00, lastCrc16 := 0,
        lastDataResp := 0xFF, exchanges := 13, delays := 2, card := .script [] } := by decide +kernel

/-- 44_transfer R199 and R200 (P7), R202. -/
theorem test_start_sub_block :
    events .startSubBlock (inFlight .write .multi false [0, 0, 0xFF]) =
      some [.xchg 0xFF 0, .dly 1, .xchg 0xFF 0, .dly 1, .xchg 0xFF 0xFF, .xchg 0xFC 0xFF] ∧
    answer .startSubBlock (inFlight .read .multi false [0xFF, 0xFE]) = some (.ok, .none) := by
  decide +kernel

/-- The second `START_SUB_BLOCK` of P7. -/
theorem test_start_sub_block_without_a_token :
    seen .startSubBlock
        { inFlight .read .multi false [] with cfg := { Cfg.default with tokenAttempts := 3 } } =
      some {
        status := some .tokenTimeout, xfer := none, cs := false, lastR1 := 0xFF, lastCrc16 := 0,
        lastDataResp := 0xFF, exchanges := 4, delays := 3, card := .script [] } := by decide +kernel

theorem test_xfer_byte :
    answer (.xferByte 0xA5) (inFlight .read .single false [0x3C]) = some (.ok, .byte 0x3C) ∧
    events (.xferByte 0xA5) (inFlight .read .single false [0x3C]) = some [.xchg 0xA5 0x3C] := by
  decide +kernel

/-- 44_transfer R203, R204. -/
theorem test_stop_sub_block :
    (nextOf (exec (.stopSubBlock 0) (inFlight .read .multi true [0x7F, 0xA1]))).map (·.lastCrc16) =
      some 0x7FA1 ∧
    events (.stopSubBlock 0x7FA1) (inFlight .write .multi true [0xFF, 0xFF, 0xE5]) =
      some [.xchg 0x7F 0xFF, .xchg 0xA1 0xFF, .xchg 0xFF 0xE5] ∧
    seen (.stopSubBlock 0x7FA1) (inFlight .write .multi true [0xFF, 0xFF, 0xE5]) =
      some {
        status := some .ok, xfer := some { dir := .write, gran := .multi, subOpen := false }, cs := true,
        lastR1 := 0xFF, lastCrc16 := 0x7FA1, lastDataResp := 0xE5, exchanges := 3, delays := 0,
        card := .script [] } := by decide +kernel

/-- The last operation of P4. -/
theorem test_end_transfer_of_a_multi_block_write :
    events (.endTransfer 0) (inFlight .write .multi false ([0x00, 0xFF] ++ ff 8 ++ [0x00, 0xFF])) =
      some [.xchg 0xFF 0, .dly 1, .xchg 0xFF 0xFF, .xchg 0xFF 0xFF, .xchg 0x4C 0xFF, .xchg 0 0xFF,
        .xchg 0 0xFF, .xchg 0 0xFF, .xchg 0 0xFF, .xchg 0x61 0xFF, .xchg 0xFF 0xFF, .xchg 0xFF 0,
        .xchg 0xFF 0xFF, .desel] := by decide +kernel

/-- 44_transfer R207: the trailer of a single-block write inside `END_TRANSFER`. -/
theorem test_end_transfer_of_a_single_block_write :
    seen (.endTransfer 0x40DA) (inFlight .write .single false ([0xFF, 0xFF, 0xE5, 0xFF] ++ ff 8 ++ [0])) =
      some {
        status := some .ok, xfer := none, cs := false, lastR1 := 0x00, lastCrc16 := 0x40DA,
        lastDataResp := 0xE5, exchanges := 14, delays := 0, card := .script [] } := by decide +kernel

/-- P3 with a block of 512 bytes 0xA5 and the trailer 42 BE; the trace is not evaluated. -/
theorem test_read_block :
    (nextOf (exec (.readBlock 0x200) (active (ff 10 ++ [0x00, 0xFF, 0xFF, 0xFE] ++
        List.replicate 512 0xA5 ++ [0x42, 0xBE] ++ ff 8 ++ [0x00, 0xFF])))).map
      (fun t => (t.response.map (·.status), t.xfer, t.cs, t.lastR1, t.lastCrc16)) =
      some (some .ok, none, false, 0x00, 0x42BE) := by decide +kernel

/-- P2 on a list of two bytes, which keeps the evaluation small (the meaning takes a list): the
trailer is V23's 13 73, and 30 exchanges of P2's 540 are left. -/
theorem test_write_block :
    seen (.writeBlock 0x200 [0x01, 0x02]) (active (ff 10 ++ [0x00] ++ ff 3 ++
        [0xFF, 0xFF, 0xE5, 0x00, 0x00, 0xFF] ++ ff 8 ++ [0x00, 0xFF])) =
      some {
        status := some .ok, xfer := none, cs := false, lastR1 := 0x00, lastCrc16 := 0x1373,
        lastDataResp := 0xE5, exchanges := 30, delays := 2, card := .script [] } := by decide +kernel

/-! Initialization. -/

/-- P5: the MMC fallback; the script is used up exactly. -/
theorem test_initialize_with_fallback :
    let card := ff 17 ++ [1] ++ ff 7 ++ [5] ++ ff 7 ++ [5] ++ ff 7 ++ [1] ++ ff 7 ++ [5] ++ ff 7 ++ [5] ++
      ff 7 ++ [0] ++ ff 7 ++ [0] ++ ff 7 ++ [0, 0xFE] ++ cid1.toList ++ ff 7 ++ [0] ++ ff 7 ++
      [0, 0xFE] ++ csd0.toList ++ ff 7 ++ [0] ++ ff 1
    (nextOf (exec .initializeCard (onCard card))).map
      (fun t => (t.active, t.cid, t.csd)) = some (true, cid1, csd0) ∧
    seen .initializeCard (onCard card) =
      some {
        status := some .ok, xfer := none, cs := false, lastR1 := 0x00, lastCrc16 := 0,
        lastDataResp := 0xFF, exchanges := 141, delays := 1, card := .script [] } := by decide +kernel

/-- P6 (a). -/
theorem test_initialize_silent_card :
    seen .initializeCard { onCard [] with cfg := { Cfg.default with resetAttempts := 2 } } =
      some {
        status := some .initFailReset, xfer := none, cs := false, lastR1 := 0xFF, lastCrc16 := 0,
        lastDataResp := 0xFF, exchanges := 57, delays := 2, card := .script [] } := by decide +kernel

/-! Witnesses: a state and operands that meet the hypotheses of each obligation that has any, one for
each clause. The next state of a meaning is named by `exec` itself, so that it is not written out. -/

/-- A run that answers `OK` has a next state; the state `t` of a witness is this one. -/
def resultOf (i : Instr) (s : State) : State := (nextOf (exec i s)).getD s

/-- `s` with the operation `i` at the head of its host port. -/
def presenting (i : Instr) (s : State) : State := { s with hostPort := encode s.cfg i }

/-- `s` with the engine-side word `i` at the head of its port. -/
def micro (i : Instr) (s : State) : State := { s with microPort := encode s.cfg i }

theorem active_inv (is : List Byte) : (active is).Inv := by
  simp [State.Inv, State.FlagChain, active, onCard, State.reset]

theorem inFlight_inv (is : List Byte) : (inFlight .read .multi false is).Inv := by
  simp [State.Inv, State.FlagChain, inFlight, active]

/-- S4's two messages. -/
theorem witness_CrcLinearity :
    ([0x12, 0x34, 0x56] : List Byte).length = ([0xAB, 0xCD, 0xEF] : List Byte).length ∧
      crc16 0 (xorBytes [0x12, 0x34, 0x56] [0xAB, 0xCD, 0xEF]) = 0xFFC5 := by decide +kernel

theorem witness_DecodeEncodeAgree :
    (Instr.writeBlock 0 (List.replicate 512 0)).wf = true ∧
    frameOf Cfg.default (.writeBlock 0 (List.replicate 512 0)) = none ∧
    Instr.cmdEndWrite.wf = true ∧ frameOf Cfg.default .cmdEndWrite = some (12, 0) ∧
    (Instr.frame 63 0).wf = true ∧ isEmitted Cfg.default 63 0 = false ∧
    (Instr.cmdReadCid).wf = true := by decide +kernel

theorem witness_RowsWithOneWordRunTheSame :
    Instr.cmdEndRead.wf = true ∧ Instr.cmdEndWrite.wf = true ∧
      encode Cfg.default .cmdEndRead = encode Cfg.default .cmdEndWrite := by decide +kernel

theorem witness_DecodedInstructionsAreWellFormed :
    first [0x0F] = some .reservedF ∧ first ([0x06, 0, 0, 2, 0] ++ List.replicate 512 0xA5) =
      some (.writeBlock 0x200 (List.replicate 512 0xA5)) := by decide +kernel

/-- Both ranges at both ends; the bytes beside them do begin a word or a frame. -/
theorem witness_ReservedFirstBytesRejected :
    errorOf [0x10] = some (.reservedByte 0x10) ∧ errorOf [0x3F] = some (.reservedByte 0x3F) ∧
    errorOf [0x80] = some (.reservedByte 0x80) ∧ errorOf [0xFB] = some (.reservedByte 0xFB) ∧
    errorOf [0x0F] = none ∧ errorOf [0x40] = some .truncated ∧ errorOf [0x7F] = some .truncated ∧
    errorOf [0xFC] = none := by decide +kernel

theorem witness_StepRunsTheDecodedWord :
    ((presenting .isActive State.reset).microPort = [] ∧ first [0x00] = some .isActive ∧
      Instr.isActive.isHostOp = true) ∧
    ((micro .byteIdle State.reset).microPort = [0xFF] ∧ first [0xFF] = some .byteIdle ∧
      Instr.byteIdle.isHostOp = false) ∧
    (State.reset.microPort = [] ∧ State.reset.hostPort = []) := by decide +kernel

theorem witness_PresentedOperationRuns :
    (Instr.readBlock 7).wf = true ∧ (Instr.readBlock 7).isHostOp = true ∧
    (presenting (.readBlock 7) State.reset).microPort = [] ∧
    (presenting (.readBlock 7) State.reset).hostPort = encode Cfg.default (.readBlock 7) ++ [] := by
  decide +kernel

/-- A generic frame of each kind (30_encoding R81): the first is the reset command's, the second has the
reset command's index and another argument. -/
theorem witness_EveryInstructionReturns :
    isEmitted Cfg.default 0 0 = true ∧ isEmitted Cfg.default 0 1 = false ∧
    exec (.frame 0 1) State.reset = .refused (.frameNotEmitted 0 1) ∧
    needsSelect (.frame 0 0) = true ∧ (selectedCard []).cs = true ∧
    exec (.frame 0 0) State.reset = .refused .cardReleased ∧ needsSelect .byteIdle = false :=
  ⟨by decide +kernel, by decide +kernel, rfl, rfl, rfl, rfl, rfl⟩

/-- With a status that is not `OK`. -/
theorem witness_ResponsesCarryStatusRegisters :
    (Instr.xferByte 0).isHostOp = true ∧ answer (.xferByte 0) State.reset = some (.seqError, .byte 0) := by
  decide +kernel

theorem witness_RefusedOperationsChangeNothing :
    Instr.getCid.isHostOp = true ∧ refusalOf .getCid State.reset = some .notActive ∧
    refusalOf .startSubBlock State.reset = some .seqError ∧
    refusalOf .reservedE State.reset = some .badOp := by decide +kernel

theorem witness_AdmittedOperationsAreNotRefused :
    Instr.getCid.isHostOp = true ∧ refusalOf .getCid (active []) = none ∧
    refusalOf (.endTransfer 0) (inFlight .read .single false []) = none := by decide +kernel

/-- A token timeout of `START_SUB_BLOCK`. -/
theorem witness_StatusCodesOfEachOperation :
    Instr.startSubBlock.isHostOp = true ∧
    answer .startSubBlock
        { inFlight .read .multi false [] with cfg := { Cfg.default with tokenAttempts := 1 } } =
      some (.tokenTimeout, .none) := by decide +kernel

theorem witness_CidFieldsByBitPosition : ({ active [] with cid := cid1 } : State).active = true := by
  decide +kernel

/-- The three cases of the version field. -/
theorem witness_CsdFieldsByBitPosition :
    (withCsd csd0).active = true ∧ (regBits csd0).extractLsb' 126 2 = 0#2 ∧
    (regBits csd1).extractLsb' 126 2 = 1#2 ∧
    (regBits ((Vector.replicate 16 0x00).set 0 0x80)).extractLsb' 126 2 = 2#2 := by decide +kernel

/-- The three cases of the version field. -/
theorem witness_CapacityFormulas :
    (withCsd csd1).active = true ∧ (regBits csd0).extractLsb' 126 2 = 0#2 ∧
    (regBits csd1).extractLsb' 126 2 = 1#2 ∧
    (regBits ((Vector.replicate 16 0xFF).set 0 0xC0)).extractLsb' 126 2 = 3#2 := by decide +kernel

/-- The exponent at the boundary of the divisibility clause. -/
theorem witness_CapacityBounds :
    (CsdRecord.legacy 4 0 3).capacity = some 512 ∧ 7 ≤ (3#3).toNat + (4#4).toNat ∧
    (CsdRecord.highCapacity 0).capacity = some 524288 := by decide +kernel

/-- The clauses, and the argument of a row with an address. -/
theorem witness_GenericFrameSendsCommand :
    (selectedCard []).cs = true ∧ State.reset.cs = false ∧
    isEmitted State.reset.cfg 16 512 = true ∧ isEmitted State.reset.cfg 16 0 = false ∧
    isEmitted State.reset.cfg 63 0 = false ∧ isEmitted State.reset.cfg 17 0xFFFFFFFF = true := by
  decide +kernel

/-- A named row and the generic one. -/
theorem witness_CommandExchangeCount :
    (frameOf State.reset.cfg .cmdReset).isSome = true ∧
    (∃ t, exec .cmdReset (selectedCard []) = .next t) ∧
    (frameOf State.reset.cfg (.frame 0 0)).isSome = true ∧
    (∃ t, exec (.frame 0 0) (selectedCard []) = .next t) := ⟨rfl, ⟨_, rfl⟩, rfl, ⟨_, rfl⟩⟩

theorem witness_CommandRowsSendTheirFrames :
    (selectedCard []).cs = true ∧ State.reset.cs = false ∧
    (frameOf State.reset.cfg (.cmdWriteMulti 0)).isSome = true := by decide +kernel

theorem witness_TokenRowsSendTheirByte :
    (selectedCard []).cs = true ∧ State.reset.cs = false ∧
    (inFlight .write .multi false []).xfer ≠ none := by
  decide +kernel

theorem witness_InitializeRunsTheStagesInOrder :
    State.reset.xfer = none ∧ (inFlight .read .multi false []).xfer ≠ none := by decide +kernel

theorem witness_SilentCardGetsOnlyResetFrames :
    (onCard []).xfer = none ∧ (onCard []).bus.card = .script [] := by decide +kernel

/-- The prompt card's script with the default configuration. -/
def promptScript (cid csd : Reg16) : List Byte :=
  List.replicate 10 0xFF ++ promptReply 0x01 ++ promptReply 0x01 ++ promptReply 0x00 ++
    promptReply 0x00 ++ promptReply 0x00 ++ [0xFE] ++ cid.toList ++ promptReply 0x00 ++
    promptReply 0x00 ++ [0xFE] ++ csd.toList ++ promptReply 0x00

theorem witness_PromptCardBecomesActive :
    let s := onCard (promptScript cid1 csd1)
    s.xfer = none ∧ 0 < s.cfg.resetAttempts ∧ 0 < s.cfg.initAttempts ∧ 0 < s.cfg.blkLenAttempts ∧
    0 < s.cfg.tokenAttempts ∧ s.cfg.powerupIdleClocks = 10 ∧
    answer .initializeCard s = some (.ok, .none) := by decide +kernel

theorem witness_InitializeIsBounded :
    exec .initializeCard State.reset = .next State.reset.initializeCard := rfl

theorem witness_ModeOperandTable :
    (match takeArg [0, 0, 2, 0] with
      | .ok (a, _) => some a
      | .error _ => none) = some 0x200 ∧
    first [0x07, 0, 0, 0, 2, 0] = some (.beginTransfer .read .single 0x200) ∧
    first [0x07, 3, 0, 0, 2, 0] = some (.beginTransfer .write .multi 0x200) := by decide +kernel

theorem witness_BeginTransferOutcomes :
    State.reset.active = false ∧ (inFlight .read .single false []).active = true ∧
    (inFlight .read .single false []).xfer ≠ none ∧
    (active []).active = true ∧ (active []).xfer = none := by decide +kernel

theorem witness_PromptCardBeginsATransfer :
    let s := active (List.replicate 2 0xFF ++ promptReply 0x00 ++ [0xFE] ++ [])
    s.active = true ∧ s.xfer = none ∧ 0 < s.cfg.tokenAttempts ∧ s.cfg.preSelectIdleClocks + 1 = 2 ∧
    answer (.beginTransfer .read .single 0) s = some (.ok, .none) := by decide +kernel

theorem witness_StartSubBlockOfWrite :
    (inFlight .write .multi false []).xfer =
      some { dir := .write, gran := .multi, subOpen := false } := rfl

theorem witness_StartSubBlockOfRead :
    (inFlight .read .multi false []).xfer =
      some { dir := .read, gran := .multi, subOpen := false } := rfl

theorem witness_StopSubBlockTrailer :
    (inFlight .read .multi true []).xfer = some { dir := .read, gran := .multi, subOpen := true } ∧
    (inFlight .write .multi true []).xfer =
      some { dir := .write, gran := .multi, subOpen := true } := ⟨rfl, rfl⟩

/-- The two refusals and the four kinds. -/
theorem witness_EndTransferOfEachKind :
    State.reset.xfer = none ∧
    (inFlight .read .multi true []).xfer = some { dir := .read, gran := .multi, subOpen := true } ∧
    answer (.endTransfer 0) (inFlight .read .single false []) = some (.ok, .none) ∧
    answer (.endTransfer 0) (inFlight .write .single false []) = some (.ok, .none) ∧
    answer (.endTransfer 0) (inFlight .read .multi false []) = some (.ok, .none) ∧
    answer (.endTransfer 0) (inFlight .write .multi false []) = some (.ok, .none) := by decide +kernel

theorem witness_XferByteIsOneExchange :
    State.reset.xfer = none ∧ (inFlight .read .single false []).xfer ≠ none := by decide +kernel

theorem witness_ReadBlockOutcomes :
    State.reset.active = false ∧ (inFlight .write .multi true []).active = true ∧
    (inFlight .write .multi true []).xfer ≠ none ∧
    (active []).active = true ∧ (active []).xfer = none := by decide +kernel

theorem witness_WriteBlockOutcomes :
    State.reset.active = false ∧ (inFlight .read .multi false []).active = true ∧
    (inFlight .read .multi false []).xfer ≠ none ∧
    (List.replicate 512 (0 : Byte)).length = 512 ∧ (active []).active = true ∧
      (active []).xfer = none := by decide +kernel

/-- A `READ_BLOCK` and a `WRITE_BLOCK` that answer `OK`, and one of each that does not. -/
theorem witness_BlockOperationsAreTheirSequences :
    (seen (.readBlock 0x200) (active (ff 10 ++ [0x00, 0xFF, 0xFF, 0xFE]))).map (·.status) =
      some (some .ok) ∧
    (seen (.writeBlock 0x200 [0x01]) (active (ff 10 ++ [0x00]))).map (·.status) = some (some .ok) ∧
    (active []).xfer = none ∧
    (answer (.readBlock 0) (active [])).map (·.1) = some .cmdNoResponse ∧
    answer (.writeBlock 0 [0x01]) (active (ff 9 ++ [0x20])) = some (.cmdRejected, .none) := by
  decide +kernel

/-- The two scripts, with a block of zeros, the trailer 00 00 and the data-response token E5. -/
theorem witness_PromptCardServesBlocks :
    (List.replicate 512 (0 : Byte)).length = 512 ∧ (active []).active = true ∧
    (active []).xfer = none ∧ 0 < (active []).cfg.tokenAttempts ∧ 0 < (active []).cfg.busyAttempts ∧
    (active (List.replicate 2 0xFF ++ promptReply 0x00 ++ [0xFE] ++ List.replicate 512 0x00 ++
      [0x00, 0x00] ++ promptReply 0x00)).cfg.preSelectIdleClocks + 1 = 2 ∧
    (active (List.replicate 2 0xFF ++ promptReply 0x00 ++ [0xFF] ++ List.replicate 512 0xFF ++
      [0xFF, 0xFF, 0xE5] ++ [0xFF] ++ promptReply 0x00)).xfer = none := by decide +kernel

theorem witness_PayloadBytesPassInOrder : (inFlight .write .single false []).xfer ≠ none := by
  decide +kernel

theorem witness_TransferOperationsAreBounded :
    (∃ t, exec (.beginTransfer .read .single 0) (active []) = .next t) ∧
    (∃ t, exec .startSubBlock (inFlight .read .multi false []) = .next t) ∧
    (∃ t, exec (.stopSubBlock 0) (inFlight .read .multi true []) = .next t) ∧
    (∃ t, exec (.xferByte 0) (inFlight .read .single false []) = .next t) ∧
    (inFlight .read .single false []).xfer ≠ none ∧
    (∃ t, exec (.endTransfer 0) (inFlight .read .single false []) = .next t) :=
  ⟨⟨_, rfl⟩, ⟨_, rfl⟩, ⟨_, rfl⟩, ⟨_, rfl⟩, by decide +kernel, ⟨_, rfl⟩⟩

/-- Each operation and each status. -/
theorem witness_FailedTransferKeepsTheSession :
    (inFlight .read .multi false []).Inv ∧ (active []).Inv ∧
    answer (.beginTransfer .write .multi 0) (active []) = some (.cmdNoResponse, .none) ∧
    answer (.writeBlock 0 [0x01]) (active (ff 9 ++ [0x20])) = some (.cmdRejected, .none) ∧
    (answer .startSubBlock (inFlight .read .multi false [])).map (·.1) = some .tokenTimeout ∧
    (answer (.readBlock 0) (active [])).map (·.1) = some .cmdNoResponse :=
  ⟨inFlight_inv _, active_inv _, by decide +kernel, by decide +kernel, by decide +kernel,
    by decide +kernel⟩

/-- The clauses: an element that is not in the row, and the four restrictions. -/
theorem witness_OnlyListedWritersWrite :
    (∃ t, exec (.xferByte 0) (inFlight .read .single false []) = .next t) ∧
    Element.session ∉ writersTable (.xferByte 0) ∧ Element.xfer ∉ writersTable (.xferByte 0) ∧
    Element.cs ∉ writersTable (.xferByte 0) ∧ Element.lastR1 ∉ writersTable (.xferByte 0) ∧
    Element.lastCrc16 ∉ writersTable (.xferByte 0) ∧
    Element.lastDataResp ∉ writersTable (.xferByte 0) ∧
    (resultOf .startSubBlock (inFlight .read .multi false [])).cs = false ∧
    (resultOf (.stopSubBlock 0) (inFlight .write .multi true [0, 0, 5])).lastDataResp = 5 ∧
    (resultOf (.endTransfer 7) (inFlight .write .single false [])).lastCrc16 = 7 ∧
    (resultOf (.endTransfer 7) (inFlight .write .single false [0, 0, 5])).lastDataResp = 5 :=
  ⟨⟨_, rfl⟩, by decide, by decide, by decide, by decide, by decide, by decide, by decide +kernel,
    by decide +kernel, by decide +kernel, by decide +kernel⟩

theorem witness_StepKeepsTheInvariants :
    (active []).Inv ∧ ∃ t, step (presenting (.beginTransfer .read .multi 0) (active [])) = .next t :=
  ⟨active_inv _, _, rfl⟩

/-- A step of each port. -/
theorem witness_StepKeepsTheBusDiscipline :
    (active []).Inv ∧ (active []).BusDiscipline ∧
    (∃ t, step (presenting (.beginTransfer .read .multi 0) (active [])) = .next t) ∧
    ({ inFlight .read .multi false [] with
        bus := { trace := [.sel], card := .script [] } } : State).BusDiscipline ∧
    (∃ t, step (micro .byteIdle (inFlight .read .multi false [])) = .next t) :=
  ⟨active_inv _, rfl, ⟨_, rfl⟩, rfl, ⟨_, rfl⟩⟩

theorem witness_StepOnlyAppendsToTheTrace :
    ∃ t, step (presenting .isActive State.reset) = .next t := ⟨_, rfl⟩

end Sys2Proof.Tests.Slice0
end

section
/-! PROOFS. The words of the host operations are read back as they were written (30_encoding R82,
R85; the byte layout is log 4 and log 5). -/

namespace Sys2Proof

open Sys2Proof.Machine

/-- A word is at least one byte. -/
theorem ne_nil_of_decode {cfg : Cfg} {bs : List Byte} {r : Instr × List Byte}
    (h : decode cfg bs = .ok r) : bs ≠ [] := by
  rintro rfl
  cases h

/-- A first byte below 0x10 is an operation code (30_encoding R82). -/
theorem decode_hostCode {cfg : Cfg} {b : Byte} (hb : b.toNat < 16) (bs : List Byte) :
    decode cfg (b :: bs) = decodeHostOp b.toNat bs := by
  rw [decode_cons, if_pos ((high_nibble_zero b).2 hb)]

/-- The mode byte of `BEGIN_TRANSFER` is read back as its direction and granularity (30_encoding
R83). -/
theorem modeBits_readBack (dir : Dir) (gran : Gran) :
    ((modeBits dir gran).setWidth 8).extractLsb' 2 6 = 0 ∧
    modeDir (((modeBits dir gran).setWidth 8).extractLsb' 0 2) = dir ∧
    modeGran (((modeBits dir gran).setWidth 8).extractLsb' 0 2) = gran := by
  cases dir <;> cases gran <;> decide

/-- Decoding the word of a well-formed host operation gives the operation back, whatever follows it. -/
theorem decode_encode_of_isHostOp (cfg : Cfg) {i : Instr} (hw : i.wf = true)
    (hh : i.isHostOp = true) (rest : List Byte) :
    decode cfg (encode cfg i ++ rest) = .ok (i, rest) := by
  cases i <;> cases hh
  case isActive | initializeCard | capacityBytes | getCid | getCsd | startSubBlock | reservedE
      | reservedF => rfl
  all_goals rw [encode, List.cons_append, decode_hostCode (by decide)]
  case writeBlock addr buf =>
    have hb : buf.length = blockLen := by simpa [Instr.wf] using hw
    simp [decodeHostOp, decodeWriteBlock, andThen, ← hb, takeBytes_append]
  case beginTransfer dir gran addr =>
    obtain ⟨hpad, hdir, hgran⟩ := modeBits_readBack dir gran
    show decodeBegin _ = _
    simp only [List.cons_append, decodeBegin, takeByte, andThen, takeArg_argBytes, hpad, hdir, hgran,
      if_true]
  case readBlock | stopSubBlock | endTransfer | xferByte | crc7 | crc16 =>
    simp [decodeHostOp, decodeReadBlock, decodeStop, decodeEnd, decodeXfer, decodeCrc7, decodeCrc16,
      takeByte, andThen]

end Sys2Proof
end

section
/-! PROOFS. What a step runs, port by port (00_scope R18, 60_exceptions R248; log 16, log 18). -/

namespace Sys2Proof.Machine

/-- With an empty engine-side port the host operation at the head of the host port is run. -/
theorem step_of_hostPort {s : State} {i : Instr} {rest : List Byte} (hm : s.microPort = [])
    (hd : decode s.cfg s.hostPort = .ok (i, rest)) (hh : i.isHostOp = true) :
    step s = exec i { s with hostPort := rest } := by
  have hf : s.fetch = some (.ok (i, { s with hostPort := rest })) := by
    simp [State.fetch, State.fetchHost, hm, ne_nil_of_decode hd, hd, hh]
  simp only [step, hf]

/-- The engine-side word at the head of its port is run, whatever the host port holds. -/
theorem step_of_microPort {s : State} {i : Instr} {rest : List Byte}
    (hd : decode s.cfg s.microPort = .ok (i, rest)) (hh : i.isHostOp = false) :
    step s = exec i { s with microPort := rest } := by
  have hf : s.fetch = some (.ok (i, { s with microPort := rest })) := by
    simp [State.fetch, State.fetchMicro, ne_nil_of_decode hd, hd, hh]
  simp only [step, hf]

/-- With both ports empty the engine is idle (60_exceptions R248). -/
theorem step_idle {s : State} (hm : s.microPort = []) (hp : s.hostPort = []) :
    step s = .next s := by
  have hf : s.fetch = none := by simp [State.fetch, hm, hp]
  simp only [step, hf]

/-- Settles O16: the three cases of the fetch, each by its own lemma. -/
theorem stepRunsTheDecodedWord : Obligations.StepRunsTheDecodedWord :=
  ⟨fun _ _ _ => step_of_hostPort, fun _ _ _ => step_of_microPort, fun _ => step_idle⟩

/-- Settles O17: the operation's word is read back as the operation, and a step runs what it reads. -/
theorem presentedOperationRuns : Obligations.PresentedOperationRuns := by
  intro s i more hw hh hm hp
  have hd : decode s.cfg s.hostPort = .ok (i, more) := by
    rw [hp]
    exact decode_encode_of_isHostOp s.cfg hw hh more
  exact step_of_hostPort hm hd hh

end Sys2Proof.Machine
end

section
/-! PROOFS. What an instruction with a next state has done to the record `S`, said once: which elements
have new values, and in which states. The bus and the response are any; their laws are in
Laws/Ops.lean and Laws/Transfer.lean. -/

namespace Sys2Proof.Machine

/-- How the bring-up of `INITIALIZE` ends: the flag chain holds, the card is released, and of `S` at
most the session and `S.lastR1` have new values (43 R171 to R176). -/
def SessionEnd (s t : State) : Prop :=
  t.FlagChain ∧ t.cs = false ∧ t.xfer = s.xfer ∧ t.lastCrc16 = s.lastCrc16 ∧
    t.lastDataResp = s.lastDataResp ∧ t.cfg = s.cfg ∧ t.hostPort = s.hostPort ∧
    t.microPort = s.microPort

/-- The next states `t` of an instruction run in `s`, one constructor for each set of elements of `S`
that it can give new values (10_state R39). -/
inductive Effect : Instr → State → State → Prop
  /-- No element of `S`: a refusal, a query, a CRC, a payload byte, a token. -/
  | quiet {i : Instr} {s : State} (b : Bus) (r : Option Response) :
      Effect i s { s with bus := b, response := r }
  /-- `SendCommand` of a command row (41 R122). -/
  | command {i : Instr} {s : State} {p : CmdIndex × Arg} (hf : frameOf s.cfg i = some p) (b : Bus)
      (r1 : Byte) : Effect i s { s with bus := b, lastR1 := r1 }
  /-- `INITIALIZE` outside a transfer (43 R170). -/
  | broughtUp {s t : State} (hx : s.xfer = none) (ht : SessionEnd s t) : Effect .initializeCard s t
  /-- A `BEGIN_TRANSFER` with which a transfer has begun (44 R196). -/
  | begun {s : State} {dir : Dir} {gran : Gran} {addr : Arg} (ha : s.active = true) (b : Bus)
      (r1 : Byte) (r : Option Response) :
      Effect (.beginTransfer dir gran addr) s { s with
        bus := b, lastR1 := r1, cs := true, xfer := some { dir, gran, subOpen := false },
        response := r }
  /-- A command that opens no transfer: the card is released again (44 R196, R208, R209). -/
  | notBegun {i : Instr} {s : State}
      (hi : (∃ d g a, i = .beginTransfer d g a) ∨ (∃ a, i = .readBlock a) ∨
        ∃ a buf, i = .writeBlock a buf) (hx : s.xfer = none) (b : Bus) (r1 : Byte) (r : Option Response) :
      Effect i s { s with bus := b, lastR1 := r1, cs := false, response := r }
  /-- A sub-block opened (44 R199, R200). -/
  | subOpened {s : State} {dir : Dir}
      (hx : s.xfer = some { dir, gran := .multi, subOpen := false }) (b : Bus)
      (r : Option Response) :
      Effect .startSubBlock s { s with
        bus := b, xfer := some { dir, gran := .multi, subOpen := true }, response := r }
  /-- A sub-block whose token did not come (44 R195, R200). -/
  | aborted {s : State} (b : Bus) (r : Option Response) :
      Effect .startSubBlock s { s with bus := b, cs := false, xfer := none, response := r }
  /-- A sub-block of a read closed (44 R203). -/
  | subReadClosed {s : State} {crc : Half}
      (hx : s.xfer = some { dir := .read, gran := .multi, subOpen := true }) (b : Bus) (w : Half)
      (r : Option Response) :
      Effect (.stopSubBlock crc) s { s with
        bus := b, lastCrc16 := w, xfer := some { dir := .read, gran := .multi, subOpen := false },
        response := r }
  /-- A sub-block of a write closed (44 R204). -/
  | subWriteClosed {s : State} {crc : Half}
      (hx : s.xfer = some { dir := .write, gran := .multi, subOpen := true }) (b : Bus) (w : Half)
      (d : Byte) (r : Option Response) :
      Effect (.stopSubBlock crc) s { s with
        bus := b, lastCrc16 := w, lastDataResp := d,
        xfer := some { dir := .write, gran := .multi, subOpen := false }, response := r }
  /-- A multi-block transfer closed (44 R205). -/
  | multiEnded {s : State} {crc : Half} (b : Bus) (r1 : Byte) (r : Option Response) :
      Effect (.endTransfer crc) s { s with
        bus := b, lastR1 := r1, cs := false, xfer := none, response := r }
  /-- A single-block read closed (44 R206). -/
  | readEnded {s : State} {crc : Half} {o : Bool}
      (hx : s.xfer = some { dir := .read, gran := .single, subOpen := o }) (b : Bus) (w : Half)
      (r1 : Byte) (r : Option Response) :
      Effect (.endTransfer crc) s { s with
        bus := b, lastCrc16 := w, lastR1 := r1, cs := false, xfer := none, response := r }
  /-- A single-block write closed (44 R207). -/
  | writeEnded {s : State} {crc : Half} {o : Bool}
      (hx : s.xfer = some { dir := .write, gran := .single, subOpen := o }) (b : Bus) (w : Half)
      (d r1 : Byte) (r : Option Response) :
      Effect (.endTransfer crc) s { s with
        bus := b, lastCrc16 := w, lastDataResp := d, lastR1 := r1, cs := false, xfer := none,
        response := r }
  /-- A whole `READ_BLOCK` (44 R208). -/
  | blockRead {s : State} {addr : Arg} (b : Bus) (w : Half) (r1 : Byte) (r : Option Response) :
      Effect (.readBlock addr) s { s with
        bus := b, lastCrc16 := w, lastR1 := r1, cs := false, xfer := none, response := r }
  /-- A whole `WRITE_BLOCK` (44 R209). -/
  | blockWritten {s : State} {addr : Arg} {buf : List Byte} (b : Bus) (w : Half) (d r1 : Byte)
      (r : Option Response) :
      Effect (.writeBlock addr buf) s { s with
        bus := b, lastCrc16 := w, lastDataResp := d, lastR1 := r1, cs := false, xfer := none,
        response := r }

namespace State

/-! `INITIALIZE` (43): from each stage on the bring-up ends so, when the flags of the stages before it
are set and those after it are not. -/

/-- The release at the end of the bring-up, whatever the response. -/
theorem releaseSeq_sessionEnd {s : State} (st : Status) (v : Value) (hc : s.FlagChain) :
    SessionEnd s (s.releaseSeq.respond st v) := by
  obtain ⟨-, b, -, -, h⟩ := s.releaseSeq_spec
  rw [h]
  exact ⟨hc, rfl, rfl, rfl, rfl, rfl, rfl, rfl⟩

/-- The retrieval of one register (43 R175) writes that register, if it is found, and `S.lastR1`. -/
theorem retrieve_eq (idx : CmdIndex) (put : Reg16 → State → State) (s : State)
    (hbus : ∀ v t, (put v t).bus = t.bus) :
    ∃ (r r' : Byte) (b b' : Bus) (reg : Reg16),
      s.retrieve idx put = (false, { s with bus := b', lastR1 := r' }) ∨
      s.retrieve idx put =
        (true, { put reg { s with bus := b, lastR1 := r } with bus := b', lastR1 := r' }) := by
  obtain ⟨found, reg, -, r, r', b, b', -, -, h⟩ := s.retrieve_spec idx put hbus
  refine ⟨r, r', b, b', reg, ?_⟩
  cases found
  · exact .inl h
  · exact .inr h

theorem stage4_sessionEnd {s : State} (hr : s.resetAck = true) (hi : s.initAck = true)
    (hb : s.blkLenOk = true) : SessionEnd s s.stage4 := by
  have hc : ∀ a, FlagChain { s with active := a } := fun _ =>
    ⟨fun _ => hb, fun _ => hi, fun _ => hr⟩
  obtain ⟨r₁, r₁', b₁, b₁', cid, h | h⟩ :=
    s.retrieve_eq s.cfg.idxReadCid setCid (fun _ _ => rfl)
  · simp only [stage4, h]
    exact releaseSeq_sessionEnd _ _ (hc s.active)
  obtain ⟨r₂, r₂', b₂, b₂', csd, h' | h'⟩ := retrieve_eq s.cfg.idxReadCsd setCsd
    { setCid cid { s with bus := b₁, lastR1 := r₁ } with bus := b₁', lastR1 := r₁' }
    (fun _ _ => rfl)
  · simp only [stage4, h, h']
    exact releaseSeq_sessionEnd _ _ (hc s.active)
  · simp only [stage4, h, h']
    exact releaseSeq_sessionEnd _ _ (hc true)

theorem stage3_sessionEnd {s : State} (hr : s.resetAck = true) (hi : s.initAck = true)
    (hb : s.blkLenOk = false) (ha : s.active = false) : SessionEnd s s.stage3 := by
  obtain ⟨-, b, r, done, -, -, h⟩ := blockLenLoop_spec s.cfg.blkLenAttempts s
  rw [hb, Bool.false_or] at h
  cases done
  · simp only [stage3, h]
    exact releaseSeq_sessionEnd _ _ (by simp [FlagChain, ha, hr])
  · simp only [stage3, h]
    exact stage4_sessionEnd hr hi rfl

theorem stage2_sessionEnd {s : State} (hr : s.resetAck = true) (hi : s.initAck = false)
    (hb : s.blkLenOk = false) (ha : s.active = false) : SessionEnd s s.stage2 := by
  obtain ⟨-, b, r, done, -, -, h⟩ := negotiateLoop_spec s.cfg.initAttempts s
  rw [hi, Bool.false_or] at h
  cases done
  · simp only [stage2, h]
    exact releaseSeq_sessionEnd _ _ (by simp [FlagChain, ha, hb])
  · simp only [stage2, h]
    exact stage3_sessionEnd hr rfl hb ha

theorem stage1_sessionEnd {s : State} (hr : s.resetAck = false) (hi : s.initAck = false)
    (hb : s.blkLenOk = false) (ha : s.active = false) : SessionEnd s s.stage1 := by
  obtain ⟨-, b, r, done, -, -, h⟩ := resetLoop_spec s.cfg.resetAttempts s
  rw [hr, Bool.false_or] at h
  cases done
  · simp only [stage1, h]
    exact releaseSeq_sessionEnd _ _ (by simp [FlagChain, ha, hb, hi])
  · simp only [stage1, h]
    exact stage2_sessionEnd rfl hi hb ha

/-- `INITIALIZE` is refused during a transfer, or brings the card up from a cleared session. -/
theorem initializeCard_effect (s : State) : Effect .initializeCard s s.initializeCard := by
  unfold initializeCard
  split
  · exact .quiet _ _
  · exact .broughtUp ‹_› (stage1_sessionEnd (s := s.startSession) rfl rfl rfl rfl)

/-! The Transfer Engine (44). -/

/-- The command that opens a transfer, after `SelectSeq` (44 R191, R196). -/
theorem selectCommand_eq (s : State) (idx : CmdIndex) (arg : Arg) :
    ∃ (r1 : Byte) (b : Bus),
      s.selectSeq.command idx arg = { s with bus := b, lastR1 := r1, cs := true } := by
  obtain ⟨-, b₁, -, -, h₁⟩ := s.selectSeq_spec
  obtain ⟨r1, -, b, -, -, h⟩ := s.selectSeq.command_spec idx arg
  exact ⟨r1, b, by rw [h, h₁]⟩

/-- `BEGIN_TRANSFER` (44 R196) is refused, or fails and releases the card, or begins the transfer. -/
theorem beginTransfer_outcome (dir : Dir) (gran : Gran) (addr : Arg) (s : State) :
    ((s.beginTransfer dir gran addr).1 ≠ .ok ∧ (s.beginTransfer dir gran addr).2 = s) ∨
    ∃ (b : Bus) (r1 : Byte), s.active = true ∧ s.xfer = none ∧
      (((s.beginTransfer dir gran addr).1 ≠ .ok ∧
        (s.beginTransfer dir gran addr).2 = { s with bus := b, lastR1 := r1, cs := false }) ∨
      s.beginTransfer dir gran addr = (.ok, { s with
        bus := b, lastR1 := r1, cs := true,
        xfer := some { dir, gran, subOpen := false } })) := by
  obtain ⟨-, h⟩ | ⟨-, -, h⟩ | ⟨ha, hx, h⟩ := s.beginTransfer_cases dir gran addr
  · exact .inl (by simp [h])
  · exact .inl (by simp [h])
  obtain ⟨r1, b, hp⟩ := s.selectCommand_eq (beginIndex s.cfg dir gran) addr
  rw [hp] at h
  obtain ⟨-, h⟩ | ⟨-, -, h⟩ | ⟨-, -, h⟩ | ⟨-, -, -, h⟩ | ⟨-, -, -, -, h⟩ | ⟨-, -, -, -, h⟩ := h
  · exact .inr ⟨_, r1, ha, hx, .inl ⟨by simp [h], congrArg Prod.snd h⟩⟩
  · exact .inr ⟨_, r1, ha, hx, .inl ⟨by simp [h], congrArg Prod.snd h⟩⟩
  · exact .inr ⟨b, r1, ha, hx, .inr h⟩
  · exact .inr ⟨_, r1, ha, hx, .inr h⟩
  · exact .inr ⟨_, r1, ha, hx, .inr h⟩
  · exact .inr ⟨_, r1, ha, hx, .inl ⟨by simp [h], congrArg Prod.snd h⟩⟩

/-- `END_TRANSFER` of a single-block read (44 R206). -/
theorem endTransfer_read {s : State} {o : Bool} (crc : Half)
    (hx : s.xfer = some { dir := .read, gran := .single, subOpen := o }) :
    ∃ (b : Bus) (w : Half) (r1 : Byte), s.endTransfer crc = (.ok, { s with
      bus := b, lastCrc16 := w, lastR1 := r1, cs := false, xfer := none }) := by
  obtain ⟨hi, lo, b₁, -, h₁⟩ := s.readTrailer_spec
  obtain ⟨r1, -, b, -, -, h⟩ := s.readTrailer.closeTransfer_spec .read
  exact ⟨b, joinTrailer hi lo, r1, by rw [s.endTransfer_single crc .read o hx, trailer, h, h₁]⟩

/-- `END_TRANSFER` of a single-block write (44 R207). -/
theorem endTransfer_write {s : State} {o : Bool} (crc : Half)
    (hx : s.xfer = some { dir := .write, gran := .single, subOpen := o }) :
    ∃ (b : Bus) (w : Half) (d r1 : Byte), s.endTransfer crc = (.ok, { s with
      bus := b, lastCrc16 := w, lastDataResp := d, lastR1 := r1, cs := false, xfer := none }) := by
  obtain ⟨-, -, resp, b₁, -, h₁⟩ := s.writeTrailer_spec crc
  obtain ⟨r1, -, b, -, -, h⟩ := (s.writeTrailer crc).closeTransfer_spec .write
  exact ⟨b, crc, resp, r1, by rw [s.endTransfer_single crc .write o hx, trailer, h, h₁]⟩

theorem beginTransfer_effect (dir : Dir) (gran : Gran) (addr : Arg) (s : State) :
    Effect (.beginTransfer dir gran addr) s
      ((s.beginTransfer dir gran addr).2.respond (s.beginTransfer dir gran addr).1 .none) := by
  obtain ⟨-, h⟩ | ⟨b, r1, ha, hx, ⟨-, h⟩ | h⟩ := s.beginTransfer_outcome dir gran addr <;> rw [h]
  · exact .quiet _ _
  · exact .notBegun (.inl ⟨_, _, _, rfl⟩) hx b r1 _
  · exact .begun ha b r1 _

theorem startSubBlock_effect (s : State) :
    Effect .startSubBlock s (s.startSubBlock.2.respond s.startSubBlock.1 .none) := by
  by_cases hx : ∃ dir, s.xfer = some { dir, gran := .multi, subOpen := false }
  · obtain ⟨_ | _, hx⟩ := hx
    · obtain ⟨found, -, b, -, -, h⟩ := s.waitToken_spec
      rw [s.startSubBlock_read hx, h]
      cases found
      · obtain ⟨-, b', -, -, h'⟩ := releaseSeq_spec { s with bus := b }
        rw [if_neg Bool.false_ne_true, abort, h']
        exact .aborted b' _
      · exact .subOpened hx b _
    · obtain ⟨-, b, -, -, h⟩ := s.waitBusy_spec
      rw [s.startSubBlock_write hx, h]
      exact .subOpened hx (b.send tokenMultiStart) _
  · rw [s.startSubBlock_refused (not_exists.1 hx)]
    exact .quiet _ _

theorem stopSubBlock_effect (crc : Half) (s : State) :
    Effect (.stopSubBlock crc) s ((s.stopSubBlock crc).2.respond (s.stopSubBlock crc).1 .none) := by
  by_cases hx : ∃ dir, s.xfer = some { dir, gran := .multi, subOpen := true }
  · obtain ⟨_ | _, hx⟩ := hx <;> rw [s.stopSubBlock_open crc _ hx, trailer]
    · obtain ⟨hi, lo, b, -, h⟩ := s.readTrailer_spec
      rw [h]
      exact .subReadClosed hx b _ _
    · obtain ⟨-, -, resp, b, -, h⟩ := s.writeTrailer_spec crc
      rw [h]
      exact .subWriteClosed hx b crc resp _
  · rw [s.stopSubBlock_refused crc (not_exists.1 hx)]
    exact .quiet _ _

theorem endTransfer_effect (crc : Half) (s : State) :
    Effect (.endTransfer crc) s ((s.endTransfer crc).2.respond (s.endTransfer crc).1 .none) := by
  match hx : s.xfer with
  | none =>
    rw [s.endTransfer_refused crc (.inl hx)]
    exact .quiet _ _
  | some { dir, gran := .multi, subOpen := true } =>
    rw [s.endTransfer_refused crc (.inr ⟨dir, hx⟩)]
    exact .quiet _ _
  | some { dir, gran := .multi, subOpen := false } =>
    obtain ⟨r1, -, b, -, -, h⟩ := s.closeTransfer_spec dir
    rw [s.endTransfer_multi crc dir hx, h]
    exact .multiEnded b r1 _
  | some { dir := .read, gran := .single, subOpen := o } =>
    obtain ⟨b, w, r1, h⟩ := endTransfer_read crc hx
    rw [h]
    exact .readEnded hx b w r1 _
  | some { dir := .write, gran := .single, subOpen := o } =>
    obtain ⟨b, w, d, r1, h⟩ := endTransfer_write crc hx
    rw [h]
    exact .writeEnded hx b w d r1 _

theorem readBlock_effect (addr : Arg) (s : State) :
    Effect (.readBlock addr) s (s.readBlock addr) := by
  unfold readBlock
  obtain ⟨hne, h⟩ | ⟨b, r1, -, hx, ⟨hne, h⟩ | h⟩ := s.beginTransfer_outcome .read .single addr
  · rw [if_pos hne, h]
    exact .quiet _ _
  · rw [if_pos hne, h]
    exact .notBegun (.inr (.inl ⟨_, rfl⟩)) hx b r1 _
  · obtain ⟨b', w, r1', h'⟩ := endTransfer_read (s := setBus (Bus.recv blockLen b).2 { s with
      bus := b, lastR1 := r1, cs := true,
      xfer := some { dir := .read, gran := .single, subOpen := false } }) 0 rfl
    simp only [h, h', ne_eq, not_true_eq_false, if_false]
    exact .blockRead b' w r1' _

theorem writeBlock_effect (addr : Arg) (buf : List Byte) (s : State) :
    Effect (.writeBlock addr buf) s (s.writeBlock addr buf) := by
  unfold writeBlock
  obtain ⟨hne, h⟩ | ⟨b, r1, -, hx, ⟨hne, h⟩ | h⟩ := s.beginTransfer_outcome .write .single addr
  · rw [if_pos hne, h]
    exact .quiet _ _
  · rw [if_pos hne, h]
    exact .notBegun (.inr (.inr ⟨_, _, rfl⟩)) hx b r1 _
  · obtain ⟨b', w, d, r1', h'⟩ := endTransfer_write (s := onBus (Bus.sendAll buf) { s with
      bus := b, lastR1 := r1, cs := true,
      xfer := some { dir := .write, gran := .single, subOpen := false } }) (crc16 0 buf) rfl
    simp only [h, h', ne_eq, not_true_eq_false, if_false]
    exact .blockWritten b' w d r1' _

theorem xferByte_effect (i : Instr) (out : Byte) (s : State) : Effect i s (s.xferByte out) := by
  unfold xferByte
  split
  · exact .quiet _ _
  · exact .quiet _ _

/-- A query of the Register Decoder answers, or is refused (42 R151, R155, R160). -/
theorem query_effect (i : Instr) (c : Prop) [Decidable c] (a b : Status × Value) (s : State) :
    Effect i s (if c then s.respond a.1 a.2 else s.respond b.1 b.2) := by
  split
  · exact .quiet _ _
  · exact .quiet _ _

end State

/-- Every instruction with a next state has one of the effects above. -/
theorem exec_effect {i : Instr} {s t : State} (h : exec i s = .next t) : Effect i s t := by
  cases hf : frameOf s.cfg i with
  | some p =>
    rw [exec_frameOf hf (isEmitted_of_next h hf)] at h
    obtain ⟨-, rfl⟩ := whileSelected_next.1 h
    exact .command hf _ _
  | none =>
    cases i
    case isActive | crc7 | crc16 | reservedE | reservedF | byteIdle => cases h; exact .quiet _ _
    case tokenStartSingle | tokenStartMultiWrite =>
      obtain ⟨-, rfl⟩ := whileSelected_next.1 h
      exact .quiet _ _
    case capacityBytes | getCid | getCsd => cases h; exact s.query_effect _ _ (_, _) (_, _)
    case initializeCard => cases h; exact s.initializeCard_effect
    case beginTransfer dir gran addr => cases h; exact s.beginTransfer_effect dir gran addr
    case startSubBlock => cases h; exact s.startSubBlock_effect
    case stopSubBlock crc => cases h; exact s.stopSubBlock_effect crc
    case endTransfer crc => cases h; exact s.endTransfer_effect crc
    case xferByte | tokenStopMultiWrite => cases h; exact s.xferByte_effect _ _
    case readBlock addr => cases h; exact s.readBlock_effect addr
    case writeBlock addr buf => cases h; exact s.writeBlock_effect addr buf
    all_goals cases hf

end Sys2Proof.Machine
end

section
/-! PROOFS. The invariants between operations (10_state R25, R38), and that they hold at reset (R40). -/

namespace Sys2Proof.Machine

/-- Every effect keeps the invariants, `INITIALIZE` by building the flag chain anew. -/
theorem Effect.keeps_inv {i : Instr} {s t : State} (h : Effect i s t) (hs : s.Inv) : t.Inv := by
  obtain ⟨hchain, hactive, hcs, hsub⟩ := hs
  cases h with
  | quiet | command => exact ⟨hchain, hactive, hcs, hsub⟩
  | broughtUp hx ht =>
    obtain ⟨hc, hcs', hx', -⟩ := ht
    simp [State.Inv, hc, hcs', hx', hx]
  | begun ha => exact ⟨hchain, fun _ => ha, by simp, by simp⟩
  | notBegun _ hx => exact ⟨hchain, hactive, by simp [hx], hsub⟩
  | subOpened hx | subReadClosed hx | subWriteClosed hx =>
    exact ⟨hchain, fun _ => hactive (by simp [hx]), by simp [hcs, hx], by simp⟩
  | aborted | multiEnded | readEnded | writeEnded | blockRead | blockWritten =>
    exact ⟨hchain, by simp, by simp, by simp⟩

/-- Settles O57: the idle step changes nothing, and a word runs on a state that differs in the bytes of
its port, of which the invariants say nothing. -/
theorem stepKeepsTheInvariants : Obligations.StepKeepsTheInvariants := by
  intro s t hs h
  obtain ⟨-, -, rfl⟩ | ⟨i, rest, -, -, -, hx⟩ | ⟨i, rest, -, -, -, hx⟩ := step_cases h
  · exact hs
  · exact (exec_effect hx).keeps_inv hs
  · exact (exec_effect hx).keeps_inv hs

/-- Settles O19: each element is the field of the reset state. -/
theorem resetValues : Obligations.ResetValues := by
  refine ⟨rfl, rfl, rfl, rfl, fun i => ?_, rfl, rfl, rfl, rfl, rfl⟩
  simp [State.reset, Reg16.zero]

/-- Settles O56: at reset no flag is set, no transfer is in flight, and the trace is empty. -/
theorem invariantsHoldAtReset : Obligations.InvariantsHoldAtReset :=
  ⟨by simp [State.Inv, State.FlagChain, State.reset], rfl⟩

end Sys2Proof.Machine
end

section
/-! PROOFS. The table of writers (10_state R39). -/

namespace Sys2Proof.Machine

theorem writersTable_of_frameOf {cfg : Cfg} {i : Instr} {p : CmdIndex × Arg}
    (h : frameOf cfg i = some p) : writersTable i = [.lastR1] := by
  cases i <;> simp_all [frameOf, writersTable]

/-- Settles O55: each effect against the row of its instruction. -/
theorem onlyListedWritersWrite : Obligations.OnlyListedWritersWrite := by
  intro i s t h
  cases exec_effect h with
  | quiet => simp
  | command hf => simp [writersTable_of_frameOf hf]
  | broughtUp _ ht =>
    obtain ⟨-, -, hx, hw, hd, hcfg, hh, hm⟩ := ht
    simp [writersTable, hx, hw, hd, hcfg, hh, hm]
  | notBegun hi =>
    obtain ⟨_, _, _, rfl⟩ | ⟨_, rfl⟩ | ⟨_, _, rfl⟩ := hi <;> simp [writersTable]
  | begun | aborted | multiEnded | blockRead | blockWritten => simp [writersTable]
  | subOpened hx | subReadClosed hx | subWriteClosed hx | readEnded hx | writeEnded hx =>
    simp [writersTable, hx]

end Sys2Proof.Machine
end

section
/-! PROOFS. What a step does to the bus trace: it only appends (20_memory R58, R61), and the events it
appends keep the chip-select discipline (20_memory R62). -/

namespace Sys2Proof.Machine

/-! Events sent while the line is asserted: an attempt, a stage, a register (43 R172 to R175). -/

theorem LineStays.flatMap {α : Type} {l : List α} {f : α → List BusEvent}
    (h : ∀ a ∈ l, LineStays (f a)) : LineStays (l.flatMap f) := by
  induction l with
  | nil => rfl
  | cons a l ih =>
    rw [List.flatMap_cons]
    exact (h a List.mem_cons_self).append (ih fun b hb => h b (List.mem_cons_of_mem a hb))

theorem NegotiateEvents.lineStays {cfg : Cfg} {r : Byte} {ev : List BusEvent}
    (h : NegotiateEvents cfg r ev) : LineStays ev := by
  obtain ⟨_, _, e₁, e₂, h₁, h₂, ⟨-, e₃, h₃, rfl⟩ | ⟨-, -, rfl⟩⟩ := h
  · exact (h₁.lineStays.append h₂.lineStays).append h₃.lineStays
  · exact h₁.lineStays.append h₂.lineStays

theorem StageEvents.lineStays {one : Byte → List BusEvent → Prop} {good before last : Byte}
    {ms n : Nat} {done : Bool} {ev : List BusEvent}
    (h : StageEvents one good ms n done before last ev) (hone : ∀ r e, one r e → LineStays e) :
    LineStays ev := by
  obtain ⟨failed, hf, h⟩ := h
  have hfailed : LineStays (failed.flatMap fun a => a.2 ++ [.dly ms]) :=
    .flatMap fun a ha => (hone _ _ (hf a ha).2).append (idleOnly_dly ms).lineStays
  obtain ⟨-, -, -, e, he, rfl⟩ | ⟨-, -, -, rfl⟩ := h
  · exact hfailed.append (hone _ _ he)
  · exact hfailed

theorem RetrieveEvents.lineStays {cfg : Cfg} {idx : CmdIndex} {found : Bool} {reg : Reg16}
    {last : Byte} {ev : List BusEvent} (h : RetrieveEvents cfg idx found reg last ev) :
    LineStays ev := by
  obtain ⟨_, e₁, e₂, h₁, h₂, ⟨-, -, -, rfl⟩ | ⟨-, e₃, h₃, rfl⟩⟩ := h
  · exact h₁.lineStays.append h₂.idleOnly.lineStays
  · exact ((h₁.lineStays.append h₂.idleOnly.lineStays).append (idleOnly_map _).lineStays).append
      h₃.lineStays

/-! Two relations between a state and a later one. -/

/-- From `s` to `t` the select line did not move: the events in between keep an asserted line
asserted. -/
def SendsOn (s t : State) : Prop :=
  ∃ ev, t.bus.trace = s.bus.trace ++ ev ∧ LineStays ev ∧ t.cs = s.cs

/-- The trace of `t` continues that of `s`, and if `p` holds the events in between take the line from
`s.cs` to `t.cs` with no byte but the idle byte sent while it was released (20_memory R62). -/
def Continues (p : Prop) (s t : State) : Prop :=
  ∃ ev, t.bus.trace = s.bus.trace ++ ev ∧ (p → ev.foldl trackSelect (s.cs, true) = (t.cs, true))

theorem SendsOn.refl (s : State) : SendsOn s s := ⟨[], (List.append_nil _).symm, rfl, rfl⟩

theorem SendsOn.trans {s t u : State} (h : SendsOn s t) (h' : SendsOn t u) : SendsOn s u := by
  obtain ⟨ev, ht, hl, hc⟩ := h
  obtain ⟨ev', ht', hl', hc'⟩ := h'
  exact ⟨ev ++ ev', by rw [ht', ht, List.append_assoc], hl.append hl', hc'.trans hc⟩

theorem SendsOn.cs_eq {s t : State} (h : SendsOn s t) : t.cs = s.cs := by
  obtain ⟨-, -, -, hc⟩ := h
  exact hc

theorem Continues.refl {p : Prop} {s : State} : Continues p s s :=
  ⟨[], (List.append_nil _).symm, fun _ => rfl⟩

theorem Continues.trans {p : Prop} {s t u : State} (h : Continues p s t) (h' : Continues p t u) :
    Continues p s u := by
  obtain ⟨ev, ht, hd⟩ := h
  obtain ⟨ev', ht', hd'⟩ := h'
  refine ⟨ev ++ ev', by rw [ht', ht, List.append_assoc], fun hp => ?_⟩
  rw [List.foldl_append, hd hp, hd' hp]

/-- Idle bytes and delays are in order whether or not the line is asserted. -/
theorem Continues.of_idleOnly {p : Prop} {s t : State} {ev : List BusEvent}
    (ht : t.bus.trace = s.bus.trace ++ ev) (hev : IdleOnly ev) (hc : t.cs = s.cs) :
    Continues p s t :=
  ⟨ev, ht, fun _ => by rw [hev, hc]⟩

/-- Any byte is in order while the line is asserted. -/
theorem SendsOn.continues {p : Prop} {s t : State} (h : SendsOn s t) (hc : p → s.cs = true) :
    Continues p s t := by
  obtain ⟨ev, ht, hl, hc'⟩ := h
  refine ⟨ev, ht, fun hp => ?_⟩
  rw [hc', hc hp]
  exact hl

/-- What continues a trace in order keeps the discipline of the whole trace. -/
theorem Continues.busDiscipline {p : Prop} {s t : State} (h : Continues p s t) (hp : p)
    (hs : s.BusDiscipline) : t.BusDiscipline := by
  obtain ⟨ev, ht, hd⟩ := h
  have hs' : s.bus.trace.foldl trackSelect (false, true) = (s.cs, true) := hs
  rw [State.BusDiscipline, trackTrace, ht, List.foldl_append, hs', hd hp]

namespace State

/-! The micro-sequences (41 R122, 44 R191 to R195). -/

theorem command_sendsOn (s : State) (idx : CmdIndex) (arg : Arg) :
    SendsOn s (s.command idx arg) := by
  obtain ⟨r, ev, b, hev, ht, h⟩ := s.command_spec idx arg
  rw [h]
  exact ⟨ev, ht, hev.lineStays, rfl⟩

theorem waitToken_sendsOn (s : State) : SendsOn s s.waitToken.2 := by
  obtain ⟨found, ev, b, hev, ht, h⟩ := s.waitToken_spec
  rw [h]
  exact ⟨ev, ht, hev.idleOnly.lineStays, rfl⟩

theorem waitBusy_sendsOn (s : State) : SendsOn s s.waitBusy := by
  obtain ⟨ev, b, hev, ht, h⟩ := s.waitBusy_spec
  rw [h]
  exact ⟨ev, ht, hev.idleOnly.lineStays, rfl⟩

theorem send_sendsOn (s : State) (o : Byte) : SendsOn s (s.onBus (Bus.send o)) :=
  ⟨_, Bus.send_trace o s.bus, lineStays_xchg _ _, rfl⟩

theorem sendAll_sendsOn (s : State) (os : List Byte) : SendsOn s (s.onBus (Bus.sendAll os)) := by
  obtain ⟨got, -, ht⟩ := Bus.sendAll_spec os s.bus
  exact ⟨_, ht, lineStays_zipWith os got, rfl⟩

theorem recv_sendsOn (s : State) (n : Nat) : SendsOn s (s.setBus (s.bus.recv n).2) := by
  obtain ⟨ev, hev, ht⟩ := Bus.idle_spec n s.bus
  rw [Bus.recv_snd]
  exact ⟨ev, ht, hev.idleOnly.lineStays, rfl⟩

theorem trailer_sendsOn (s : State) (dir : Dir) (crc : Half) : SendsOn s (s.trailer dir crc) := by
  cases dir with
  | read =>
    obtain ⟨hi, lo, b, ht, h⟩ := s.readTrailer_spec
    rw [trailer, h]
    exact ⟨_, ht, rfl, rfl⟩
  | write =>
    obtain ⟨g₁, g₂, resp, b, ht, h⟩ := s.writeTrailer_spec crc
    rw [trailer, h]
    exact ⟨_, ht, rfl, rfl⟩

theorem selectSeq_continues {p : Prop} (s : State) : Continues p s s.selectSeq := by
  obtain ⟨ev, b, hev, ht, h⟩ := s.selectSeq_spec
  rw [h]
  exact ⟨ev, ht, fun _ => hev.track s.cs⟩

theorem releaseSeq_continues {p : Prop} (s : State) : Continues p s s.releaseSeq := by
  obtain ⟨ev, b, hev, ht, h⟩ := s.releaseSeq_spec
  rw [h]
  exact ⟨ev, ht, fun _ => hev.track s.cs⟩

/-! `INITIALIZE` (43): the line is asserted at its start, stays so through the stages, and is released
at its end. -/

theorem startSession_continues {p : Prop} (s : State) : Continues p s s.startSession := by
  obtain ⟨ev, hev, ht⟩ := Bus.idle_spec s.cfg.powerupIdleClocks (s.bus.log .desel)
  refine ⟨[.desel] ++ ev ++ [.sel], by simp [startSession, ht], fun _ => ?_⟩
  rw [List.foldl_append, List.foldl_append, hev.idleOnly]
  rfl

theorem resetLoop_sendsOn (n : Nat) (s : State) : SendsOn s (resetLoop n s) := by
  obtain ⟨ev, b, r, done, hev, ht, h⟩ := resetLoop_spec n s
  rw [h]
  exact ⟨ev, ht, hev.lineStays fun _ _ => CommandEvents.lineStays, rfl⟩

theorem negotiateLoop_sendsOn (n : Nat) (s : State) : SendsOn s (negotiateLoop n s) := by
  obtain ⟨ev, b, r, done, hev, ht, h⟩ := negotiateLoop_spec n s
  rw [h]
  exact ⟨ev, ht, hev.lineStays fun _ _ => NegotiateEvents.lineStays, rfl⟩

theorem blockLenLoop_sendsOn (n : Nat) (s : State) : SendsOn s (blockLenLoop n s) := by
  obtain ⟨ev, b, r, done, hev, ht, h⟩ := blockLenLoop_spec n s
  rw [h]
  exact ⟨ev, ht, hev.lineStays fun _ _ => CommandEvents.lineStays, rfl⟩

theorem retrieve_sendsOn (idx : CmdIndex) (put : Reg16 → State → State) (s : State)
    (hbus : ∀ v t, (put v t).bus = t.bus) (hcs : ∀ v t, (put v t).cs = t.cs) :
    SendsOn s (s.retrieve idx put).2 := by
  obtain ⟨found, reg, ev, r, r', b, b', hev, ht, h⟩ := s.retrieve_spec idx put hbus
  rw [h]
  cases found with
  | false => exact ⟨ev, ht, hev.lineStays, rfl⟩
  | true => exact ⟨ev, ht, hev.lineStays, hcs _ _⟩

end State

section Stages

variable {p : Prop} {s t : State}

/-- The release after events sent while the line was asserted. -/
theorem SendsOn.release (h : SendsOn s t) (hc : p → s.cs = true) : Continues p s t.releaseSeq :=
  (h.continues hc).trans t.releaseSeq_continues

theorem SendsOn.stage4 (h : SendsOn s t) (hc : p → s.cs = true) : Continues p s t.stage4 := by
  have hcid := h.trans (t.retrieve_sendsOn t.cfg.idxReadCid State.setCid (fun _ _ => rfl)
    fun _ _ => rfl)
  have hcsd := hcid.trans (State.retrieve_sendsOn t.cfg.idxReadCsd State.setCsd _ (fun _ _ => rfl)
    fun _ _ => rfl)
  unfold State.stage4
  dsimp only
  split
  · split
    · exact hcsd.release hc
    · exact hcsd.release hc
  · exact hcid.release hc

theorem SendsOn.stage3 (h : SendsOn s t) (hc : p → s.cs = true) : Continues p s t.stage3 := by
  have hloop := h.trans (State.blockLenLoop_sendsOn t.cfg.blkLenAttempts t)
  unfold State.stage3
  dsimp only
  split
  · exact hloop.stage4 hc
  · exact hloop.release hc

theorem SendsOn.stage2 (h : SendsOn s t) (hc : p → s.cs = true) : Continues p s t.stage2 := by
  have hloop := h.trans (State.negotiateLoop_sendsOn t.cfg.initAttempts t)
  unfold State.stage2
  dsimp only
  split
  · exact hloop.stage3 hc
  · exact hloop.release hc

theorem SendsOn.stage1 (h : SendsOn s t) (hc : p → s.cs = true) : Continues p s t.stage1 := by
  have hloop := h.trans (State.resetLoop_sendsOn t.cfg.resetAttempts t)
  unfold State.stage1
  dsimp only
  split
  · exact hloop.stage2 hc
  · exact hloop.release hc

end Stages

namespace State

theorem initializeCard_continues {p : Prop} (s : State) : Continues p s s.initializeCard := by
  unfold initializeCard
  split
  · exact .refl
  · exact s.startSession_continues.trans
      ((SendsOn.refl s.startSession).stage1 fun _ => rfl)

/-! The Transfer Engine (44). -/

theorem beginTransfer_continues {p : Prop} (dir : Dir) (gran : Gran) (addr : Arg) (s : State) :
    Continues p s (s.beginTransfer dir gran addr).2 := by
  obtain ⟨-, h⟩ | ⟨-, -, h⟩ | ⟨-, -, h⟩ := s.beginTransfer_cases dir gran addr
  · rw [h]
    exact .refl
  · rw [h]
    exact .refl
  have hcmd := s.selectSeq.command_sendsOn (beginIndex s.cfg dir gran) addr
  have hsel {t : State} (ht : SendsOn s.selectSeq t) : Continues p s t :=
    s.selectSeq_continues.trans (ht.continues fun _ => rfl)
  obtain ⟨-, h⟩ | ⟨-, -, h⟩ | ⟨-, -, h⟩ | ⟨-, -, -, h⟩ | ⟨-, -, -, -, h⟩ | ⟨-, -, -, -, h⟩ := h <;>
    rw [h]
  · exact (hsel hcmd).trans (releaseSeq_continues _)
  · exact (hsel hcmd).trans (releaseSeq_continues _)
  · exact hsel hcmd
  · exact hsel (hcmd.trans (send_sendsOn _ tokenStart))
  · exact hsel (hcmd.trans (waitToken_sendsOn _))
  · exact (hsel (hcmd.trans (waitToken_sendsOn _))).trans (releaseSeq_continues _)

/-- A begun transfer has the line asserted. -/
theorem beginTransfer_cs_of_ok {dir : Dir} {gran : Gran} {addr : Arg} {s : State}
    (h : (s.beginTransfer dir gran addr).1 = .ok) :
    (s.beginTransfer dir gran addr).2.cs = true := by
  obtain ⟨hne, -⟩ | ⟨b, r1, -, -, ⟨hne, -⟩ | hok⟩ := s.beginTransfer_outcome dir gran addr
  · exact absurd h hne
  · exact absurd h hne
  · rw [hok]

theorem closeTransfer_continues {p : Prop} {s : State} (dir : Dir) (hc : p → s.cs = true) :
    Continues p s (s.closeTransfer dir) := by
  obtain ⟨r, ev, b, hev, ht, h⟩ := s.closeTransfer_spec dir
  rw [h]
  refine ⟨ev, ht, fun hp => ?_⟩
  rw [hc hp]
  exact hev.track

/-! The operations on a transfer in flight, in a state where a transfer implies an asserted line if
`p` holds (10_state R38). -/

section InFlight

variable {p : Prop} {s : State} (hc : p → s.xfer ≠ none → s.cs = true)
include hc

theorem startSubBlock_continues : Continues p s s.startSubBlock.2 := by
  unfold startSubBlock
  split
  case h_1 hx =>
    exact (s.waitBusy_sendsOn.trans (send_sendsOn _ tokenMultiStart)).continues
      fun hp => hc hp (by simp [hx])
  case h_2 hx =>
    have hw : Continues p s s.waitToken.2 :=
      s.waitToken_sendsOn.continues fun hp => hc hp (by simp [hx])
    dsimp only
    split
    · exact hw
    · exact hw.trans (releaseSeq_continues _)
  case h_3 => exact .refl

theorem stopSubBlock_continues (crc : Half) : Continues p s (s.stopSubBlock crc).2 := by
  unfold stopSubBlock
  split
  case h_1 hx => exact (s.trailer_sendsOn _ crc).continues fun hp => hc hp (by simp [hx])
  case h_2 => exact .refl

theorem endTransfer_continues (crc : Half) : Continues p s (s.endTransfer crc).2 := by
  unfold endTransfer
  split
  case h_1 dir _ hx =>
    have hcs : p → s.cs = true := fun hp => hc hp (by simp [hx])
    have ht := s.trailer_sendsOn dir crc
    exact (ht.continues hcs).trans
      (closeTransfer_continues dir fun hp => ht.cs_eq.trans (hcs hp))
  case h_2 hx => exact closeTransfer_continues _ fun hp => hc hp (by simp [hx])
  case h_3 => exact .refl

theorem xferByte_continues (out : Byte) : Continues p s (s.xferByte out) := by
  by_cases hx : s.xfer = none
  · rw [s.xferByte_none out hx]
    exact .refl
  · rw [s.xferByte_some out hx]
    exact (s.send_sendsOn out).continues fun hp => hc hp hx

end InFlight

theorem readBlock_continues {p : Prop} (addr : Arg) (s : State) :
    Continues p s (s.readBlock addr) := by
  have hbegin : Continues p s _ := s.beginTransfer_continues .read .single addr
  unfold readBlock
  dsimp only
  split
  case isTrue => exact hbegin
  case isFalse hok =>
    have hcs := beginTransfer_cs_of_ok (not_not.1 hok)
    have hdata := recv_sendsOn (s.beginTransfer .read .single addr).2 blockLen
    have hend : Continues p _ _ := endTransfer_continues (fun _ _ => hdata.cs_eq.trans hcs) 0
    exact (hbegin.trans (hdata.continues fun _ => hcs)).trans hend

theorem writeBlock_continues {p : Prop} (addr : Arg) (buf : List Byte) (s : State) :
    Continues p s (s.writeBlock addr buf) := by
  have hbegin : Continues p s _ := s.beginTransfer_continues .write .single addr
  unfold writeBlock
  dsimp only
  split
  case isTrue => exact hbegin
  case isFalse hok =>
    have hcs := beginTransfer_cs_of_ok (not_not.1 hok)
    have hdata := sendAll_sendsOn (s.beginTransfer .write .single addr).2 buf
    have hend : Continues p _ _ :=
      endTransfer_continues (fun _ _ => hdata.cs_eq.trans hcs) (crc16 0 buf)
    exact (hbegin.trans (hdata.continues fun _ => hcs)).trans hend

/-- A query of the Register Decoder, answered or refused, leaves the bus alone (42 R151, R155,
R160). -/
theorem query_continues {p : Prop} (c : Prop) [Decidable c] (a b : Status × Value) (s : State) :
    Continues p s (if c then s.respond a.1 a.2 else s.respond b.1 b.2) := by
  split
  · exact .refl
  · exact .refl

end State

/-- Every instruction with a next state continues the trace, in order if the invariants hold. -/
theorem exec_continues {i : Instr} {s t : State} (h : exec i s = .next t) :
    Continues s.Inv s t := by
  have hc : s.Inv → s.xfer ≠ none → s.cs = true := fun ⟨_, _, hcs, _⟩ => hcs.2
  cases hf : frameOf s.cfg i with
  | some p =>
    rw [exec_frameOf hf (isEmitted_of_next h hf)] at h
    obtain ⟨hsel, rfl⟩ := whileSelected_next.1 h
    exact (s.command_sendsOn _ _).continues fun _ => hsel
  | none =>
    cases i
    case isActive | crc7 | crc16 | reservedE | reservedF => cases h; exact .refl
    case byteIdle =>
      cases h
      exact .of_idleOnly (Bus.send_trace idleByte s.bus) (idleOnly_xchg _) rfl
    case tokenStartSingle | tokenStartMultiWrite =>
      obtain ⟨hsel, rfl⟩ := whileSelected_next.1 h
      exact (s.send_sendsOn _).continues fun _ => hsel
    case capacityBytes | getCid | getCsd => cases h; exact s.query_continues _ (_, _) (_, _)
    case initializeCard => cases h; exact s.initializeCard_continues
    case beginTransfer dir gran addr => cases h; exact s.beginTransfer_continues dir gran addr
    case startSubBlock => cases h; exact State.startSubBlock_continues hc
    case stopSubBlock crc => cases h; exact State.stopSubBlock_continues hc crc
    case endTransfer crc => cases h; exact State.endTransfer_continues hc crc
    case xferByte | tokenStopMultiWrite => cases h; exact State.xferByte_continues hc _
    case readBlock addr => cases h; exact s.readBlock_continues addr
    case writeBlock addr buf => cases h; exact s.writeBlock_continues addr buf
    all_goals cases hf

/-- No effect writes the configuration (20_memory R64). -/
theorem Effect.cfg_eq {i : Instr} {s t : State} (h : Effect i s t) : t.cfg = s.cfg := by
  cases h with
  | broughtUp _ ht =>
    obtain ⟨-, -, -, -, -, hcfg, -⟩ := ht
    exact hcfg
  | _ => rfl

/-- Settles O58: under the invariants every step continues the trace in order. -/
theorem stepKeepsTheBusDiscipline : Obligations.StepKeepsTheBusDiscipline := by
  intro s t hinv hs h
  obtain ⟨-, -, rfl⟩ | ⟨i, rest, -, -, -, hx⟩ | ⟨i, rest, -, -, -, hx⟩ := step_cases h
  · exact hs
  · exact (exec_continues hx).busDiscipline hinv hs
  · exact (exec_continues hx).busDiscipline hinv hs

/-- Settles O59: every step continues the trace, and no effect writes the configuration. -/
theorem stepOnlyAppendsToTheTrace : Obligations.StepOnlyAppendsToTheTrace := by
  intro s t h
  obtain ⟨-, -, rfl⟩ | ⟨i, rest, -, -, -, hx⟩ | ⟨i, rest, -, -, -, hx⟩ := step_cases h
  · exact ⟨⟨[], (List.append_nil _).symm⟩, rfl⟩
  · obtain ⟨ev, ht, -⟩ := exec_continues hx
    exact ⟨⟨ev, ht⟩, (exec_effect hx).cfg_eq⟩
  · obtain ⟨ev, ht, -⟩ := exec_continues hx
    exact ⟨⟨ev, ht⟩, (exec_effect hx).cfg_eq⟩

end Sys2Proof.Machine
end

section
/-! PROOFS. The decoder and the encoder agree, and the decoder's word belongs to the port that its first
byte names (30_encoding R70, R75, R82 to R85; log 4 to log 8). -/

namespace Sys2Proof

open Sys2Proof.Machine

/-! The encoder's words are read back. -/

theorem canonical_of_frameOf {cfg : Cfg} {i : Instr} {idx : CmdIndex} {arg : Arg}
    (h : frameOf cfg i = some (idx, arg)) : canonical cfg i = classify cfg idx arg := by
  simp only [canonical, h]

theorem canonical_of_no_frame {cfg : Cfg} {i : Instr} (h : frameOf cfg i = none) :
    canonical cfg i = i := by
  simp only [canonical, h]

/-- The canonical form of a command frame has the same index and argument. -/
theorem frameOf_canonical {cfg : Cfg} {i : Instr} {p : CmdIndex × Arg}
    (h : frameOf cfg i = some p) : frameOf cfg (canonical cfg i) = some p := by
  rw [canonical_of_frameOf h, classify_frameOf]

/-- A generic frame outside the map of 30_encoding R81 is read as itself. -/
theorem canonical_frame_of_not_emitted {cfg : Cfg} {idx : CmdIndex} {arg : Arg}
    (h : isEmitted cfg idx arg = false) : canonical cfg (.frame idx arg) = .frame idx arg := by
  rw [canonical_of_frameOf (cfg := cfg) rfl]
  by_contra hne
  rw [(isEmitted_iff_classify cfg idx arg).2 hne] at h
  cases h

/-- The address rows of the default configuration have indices that no row with every bit fixed has
(00_scope R11). -/
theorem fixedRow_default_none {idx : CmdIndex} (arg : Arg)
    (h : idx ∈ [17#6, 18#6, 24#6, 25#6]) : fixedRow Cfg.default idx arg = none := by
  simp only [List.mem_cons, List.not_mem_nil, or_false] at h
  obtain rfl | rfl | rfl | rfl := h <;>
    simp [fixedRow, fixedRows, frameOf, Cfg.default, idxReset]

/-- Under the default configuration every row but `CMD_END_WRITE` and the generic one has a word of its
own (30_encoding R81, 41 R134). -/
theorem canonical_default {i : Instr} (he : i ≠ .cmdEndWrite) (hf : ∀ idx arg, i ≠ .frame idx arg) :
    canonical Cfg.default i = i := by
  cases hp : frameOf Cfg.default i with
  | none => exact canonical_of_no_frame hp
  | some p =>
    cases i
    case frame idx arg => exact absurd rfl (hf idx arg)
    case cmdEndWrite => exact absurd rfl he
    case cmdReadSingle addr | cmdReadMulti addr | cmdWriteSingle addr | cmdWriteMulti addr =>
      rw [canonical_of_frameOf rfl, classify, fixedRow_default_none addr (by decide)]
      rfl
    case cmdReset | cmdMmcInit | cmdAppPrefix | cmdSdcInit | cmdSetBlocklen | cmdReadCid | cmdReadCsd
        | cmdEndRead => decide
    all_goals cases hp

/-- Decoding a token or the idle byte gives it back (30_encoding R75, R80). -/
theorem decode_encode_of_token {cfg : Cfg} {i : Instr} (hf : frameOf cfg i = none)
    (hh : i.isHostOp = false) (rest : List Byte) :
    decode cfg (encode cfg i ++ rest) = .ok (i, rest) := by
  cases i <;> cases hh
  case tokenStartSingle | tokenStartMultiWrite | tokenStopMultiWrite | byteIdle => rfl
  all_goals cases hf

/-- The word of a well-formed instruction is read as its canonical form, whatever follows it: a command
frame as the row of its index and argument, a host operation and a token as itself. -/
theorem decode_encode (cfg : Cfg) {i : Instr} (hw : i.wf = true) (rest : List Byte) :
    decode cfg (encode cfg i ++ rest) = .ok (canonical cfg i, rest) := by
  cases hf : frameOf cfg i with
  | some p => rw [encode_of_frameOf hf, decode_frame, canonical_of_frameOf hf]
  | none =>
    rw [canonical_of_no_frame hf]
    cases hh : i.isHostOp with
    | true => exact decode_encode_of_isHostOp cfg hw hh rest
    | false => exact decode_encode_of_token hf hh rest

/-- Settles O12: the round trip, and what the canonical form of each kind of row is. -/
theorem decodeEncodeAgree : Obligations.DecodeEncodeAgree := by
  intro cfg i rest hw
  refine ⟨decode_encode cfg hw rest, canonical_of_no_frame, fun _ _ => frameOf_canonical, ?_,
    canonical_default, ?_⟩
  · rintro idx arg rfl
    exact canonical_frame_of_not_emitted
  · rintro rfl
    decide

/-! What the decoder reads. -/

/-- An operation code, with its operands read, is a well-formed host operation (30_encoding R84,
R85). -/
theorem decodeHostOp_ok {op : Nat} {bs rest : List Byte} {i : Instr}
    (h : decodeHostOp op bs = .ok (i, rest)) : i.wf = true ∧ i.isHostOp = true := by
  unfold decodeHostOp at h
  split at h
  case h_6 => -- `READ_BLOCK`
    obtain ⟨addr, _, -, h⟩ := andThen_ok h
    cases h; exact ⟨rfl, rfl⟩
  case h_7 => -- `WRITE_BLOCK`: the length of the buffer is what was asked for
    obtain ⟨addr, _, -, h⟩ := andThen_ok h
    obtain ⟨buf, _, hbuf, h⟩ := andThen_ok h
    cases h; exact ⟨by simp [Instr.wf, takeBytes_length hbuf], rfl⟩
  case h_8 => -- `BEGIN_TRANSFER`
    obtain ⟨m, _, -, h⟩ := andThen_ok h
    obtain ⟨addr, _, -, h⟩ := andThen_ok h
    split at h <;> cases h
    exact ⟨rfl, rfl⟩
  case h_10 | h_11 | h_12 => -- `STOP_SUB_BLOCK`, `END_TRANSFER`, `XFER_BYTE`
    obtain ⟨operand, _, -, h⟩ := andThen_ok h
    cases h; exact ⟨rfl, rfl⟩
  case h_13 | h_14 => -- `CRC7`, `CRC16`
    obtain ⟨seed, _, -, h⟩ := andThen_ok h
    obtain ⟨bytes, _, -, h⟩ := andThen_ok h
    cases h; exact ⟨rfl, rfl⟩
  all_goals cases h; exact ⟨rfl, rfl⟩

/-- The bytes of a frame are read as a row with a frame (30_encoding R70, R81). -/
theorem decodeFrame_ok {cfg : Cfg} {b : Byte} {bs rest : List Byte} {i : Instr}
    (h : decodeFrame cfg b bs = .ok (i, rest)) : ∃ p, frameOf cfg i = some p := by
  obtain ⟨arg, _, -, h⟩ := andThen_ok h
  obtain ⟨b5, _, -, h⟩ := andThen_ok h
  dsimp only at h
  split at h
  · split at h <;> cases h
    · exact ⟨_, classify_frameOf cfg _ arg⟩
    · exact ⟨_, addressRow_frameOf cfg _ arg⟩
  · cases h

/-- A first byte that is no operation code begins a word of the engine's own (30_encoding R70, R75). -/
theorem decode_engineWord {cfg : Cfg} {b : Byte} {bs rest : List Byte} {i : Instr}
    (hb : ¬ b.toNat < 16) (h : decode cfg (b :: bs) = .ok (i, rest)) :
    i.wf = true ∧ i.isHostOp = false := by
  rw [decode_cons, if_neg (mt (high_nibble_zero b).1 hb)] at h
  split at h
  · obtain ⟨p, hp⟩ := decodeFrame_ok h
    exact (frameOf_some hp).symm
  · repeat' split at h
    all_goals cases h
    all_goals exact ⟨rfl, rfl⟩

/-- Settles O14: a first byte below 16 is an operation code, any other begins an engine-side word. -/
theorem decodedInstructionsAreWellFormed : Obligations.DecodedInstructionsAreWellFormed := by
  intro cfg b bs rest i h
  by_cases hb : b.toNat < 16
  · rw [decode_hostCode hb] at h
    obtain ⟨hw, hh⟩ := decodeHostOp_ok h
    exact ⟨hw, iff_of_true hh hb⟩
  · obtain ⟨hw, hh⟩ := decode_engineWord hb h
    exact ⟨hw, iff_of_false (by simp [hh]) hb⟩

/-! First bytes. -/

/-- A frame's first byte is 0x40 to 0x7F (30_encoding R70). -/
theorem high_bits_one (b : Byte) : b.extractLsb' 6 2 = 1 ↔ 64 ≤ b.toNat ∧ b.toNat < 128 := by
  revert b; decide +kernel

/-- Settles O15: a byte in either range passes none of the decoder's tests of a first byte. -/
theorem reservedFirstBytesRejected : Obligations.ReservedFirstBytesRejected := by
  intro cfg b bs hb
  have hhost : ¬ b.extractLsb' 4 4 = 0 := by rw [high_nibble_zero]; omega
  have hframe : ¬ b.extractLsb' 6 2 = 1 := by rw [high_bits_one]; omega
  have htoken (c : Byte) (hc : 252 ≤ c.toNat) : ¬ b = c := by rintro rfl; omega
  rw [decode_cons, if_neg hhost, if_neg hframe, if_neg (htoken _ (by decide)),
    if_neg (htoken _ (by decide)), if_neg (htoken _ (by decide)), if_neg (htoken _ (by decide))]

/-- Settles O11: each word is evaluated, 516 zero operand bytes behind it. -/
theorem wordsDecodeToTheirRows : Obligations.WordsDecodeToTheirRows := by
  unfold Obligations.WordsDecodeToTheirRows
  decide +kernel

/-- `BEGIN_TRANSFER` is read from its code, a mode byte and an address (30_encoding R83, R85). -/
theorem decode_beginTransfer (cfg : Cfg) (dir : Dir) (gran : Gran) {bs rest : List Byte} {addr : Arg}
    (h : takeArg bs = .ok (addr, rest)) :
    decode cfg (0x07 :: (modeBits dir gran).setWidth 8 :: bs) =
      .ok (.beginTransfer dir gran addr, rest) := by
  obtain ⟨hpad, hdir, hgran⟩ := modeBits_readBack dir gran
  rw [decode_hostCode (by decide)]
  show decodeBegin _ = _
  simp only [decodeBegin, takeByte, andThen, h, hpad, hdir, hgran, if_true]

/-- Settles O40: the mode byte of each direction and granularity, and the command of each. -/
theorem modeOperandTable : Obligations.ModeOperandTable := by
  intro cfg bs rest addr h
  exact ⟨decode_beginTransfer cfg .read .single h, decode_beginTransfer cfg .write .single h,
    decode_beginTransfer cfg .read .multi h, decode_beginTransfer cfg .write .multi h,
    rfl, rfl, rfl, rfl⟩

end Sys2Proof
end

section
/-! PROOFS. Responses of the host operations (30_encoding R86, R87; log 11). -/

namespace Sys2Proof.Machine

/-- The state an operation ends in by answering `OK`, or any status with the value `d`. Its response
holds the status registers as they stand in it (30_encoding R86). -/
inductive Answered (d : Value) : State → Prop
  | ok (s : State) (v : Value) : Answered d (s.respond .ok v)
  | byDefault (s : State) (st : Status) : Answered d (s.respond st d)

theorem Answered.response_eq {d : Value} {t : State} (h : Answered d t) :
    ∃ st v, t.response = some
        { status := st, value := v, lastR1 := t.lastR1, lastCrc16 := t.lastCrc16,
          lastDataResp := t.lastDataResp } ∧
      (st ≠ .ok → v = d) := by
  cases h with
  | ok s v => exact ⟨.ok, v, rfl, fun h => absurd rfl h⟩
  | byDefault s st => exact ⟨st, d, rfl, fun _ => rfl⟩

namespace State

/-! `INITIALIZE` (43) returns no value: each stage fails, or the next one answers. -/

theorem stage4_answered (s : State) : Answered .none s.stage4 := by
  unfold stage4
  dsimp only
  split
  · split
    · exact .ok _ _
    · exact .byDefault _ _
  · exact .byDefault _ _

theorem stage3_answered (s : State) : Answered .none s.stage3 := by
  unfold stage3
  dsimp only
  split
  · exact stage4_answered _
  · exact .byDefault _ _

theorem stage2_answered (s : State) : Answered .none s.stage2 := by
  unfold stage2
  dsimp only
  split
  · exact stage3_answered _
  · exact .byDefault _ _

theorem stage1_answered (s : State) : Answered .none s.stage1 := by
  unfold stage1
  dsimp only
  split
  · exact stage2_answered _
  · exact .byDefault _ _

theorem initializeCard_answered (s : State) : Answered .none s.initializeCard := by
  unfold initializeCard
  split
  · exact .byDefault _ _
  · exact stage1_answered _

/-! The Register Decoder (42). -/

theorem getCid_answered (s : State) : Answered (.cid CidRecord.zero) s.getCid := by
  unfold getCid
  split
  · exact .byDefault _ _
  · exact .ok _ _

theorem getCsd_answered (s : State) : Answered (.csd CsdRecord.zero) s.getCsd := by
  unfold getCsd
  split
  · exact .byDefault _ _
  · exact .ok _ _

theorem capacityBytes_answered (s : State) : Answered (.bytes 0) s.capacityBytes := by
  unfold capacityBytes capacityResult
  split
  · exact .byDefault _ _
  · split
    · exact .ok _ _
    · exact .byDefault _ _

/-! The Transfer Engine (44). -/

theorem xferByte_answered (out : Byte) (s : State) : Answered (.byte 0) (s.xferByte out) := by
  unfold xferByte
  split
  · exact .byDefault _ _
  · exact .ok _ _

theorem readBlock_answered (addr : Arg) (s : State) :
    Answered (.block zeroBlock) (s.readBlock addr) := by
  unfold readBlock
  dsimp only
  split
  · exact .byDefault _ _
  · exact .ok _ _

theorem writeBlock_answered (addr : Arg) (buf : List Byte) (s : State) :
    Answered .none (s.writeBlock addr buf) := by
  unfold writeBlock
  dsimp only
  split
  · exact .byDefault _ _
  · exact .ok _ _

end State

/-- Every host operation ends by answering. -/
theorem exec_answered {i : Instr} {s t : State} (hh : i.isHostOp = true) (h : exec i s = .next t) :
    Answered (defaultValue i) t := by
  cases i <;> cases hh <;> cases h
  case isActive | crc7 | crc16 => exact .ok _ _
  case initializeCard => exact s.initializeCard_answered
  case capacityBytes => exact s.capacityBytes_answered
  case getCid => exact s.getCid_answered
  case getCsd => exact s.getCsd_answered
  case readBlock addr => exact s.readBlock_answered addr
  case writeBlock addr buf => exact s.writeBlock_answered addr buf
  case xferByte out => exact s.xferByte_answered out
  case beginTransfer | startSubBlock | stopSubBlock | endTransfer | reservedE | reservedF =>
    exact .byDefault _ _

/-- Settles O21: every host operation ends by answering, and an answer carries the status registers. -/
theorem responsesCarryStatusRegisters : Obligations.ResponsesCarryStatusRegisters :=
  fun _ _ _ hh h => (exec_answered hh h).response_eq

/-- Settles O24: the two codes are decoded without operands, and running either is the refusal. -/
theorem reservedOperationCodesAnswerBadOp : Obligations.ReservedOperationCodesAnswerBadOp := by
  intro s bs
  refine ⟨decode_hostCode (by decide) bs, decode_hostCode (by decide) bs, ?_⟩
  rintro i (rfl | rfl)
  · rfl
  · rfl

end Sys2Proof.Machine
end

section
/-! PROOFS. The tokens and the idle byte on the bus (30_encoding R75, R80, 20_memory R62, 44 R219; log 6,
log 7, log 23). -/

namespace Sys2Proof.Machine

/-- A row that runs as one exchange with the received byte discarded sends its byte. -/
theorem sendsByte_of_exec {i : Instr} {s : State} {o : Byte}
    (h : exec i s = .next (s.onBus (Bus.send o))) : SendsByte i s o :=
  ⟨_, _, Bus.send_trace o s.bus, h⟩

/-- Settles O35: each row by its meaning, the start tokens by what the chip-select line allows. -/
theorem tokenRowsSendTheirByte : Obligations.TokenRowsSendTheirByte := by
  intro s
  refine ⟨fun hs => ?_, fun hs => ?_, sendsByte_of_exec rfl, fun hx => ?_, rfl⟩
  · exact ⟨sendsByte_of_exec (whileSelected_true hs), sendsByte_of_exec (whileSelected_true hs)⟩
  · exact ⟨whileSelected_false hs, whileSelected_false hs⟩
  · exact ⟨_, _, Bus.send_trace tokenMultiStop s.bus, congrArg _ (s.xferByte_some tokenMultiStop hx)⟩

end Sys2Proof.Machine
end

section
/-! PROOFS. Both CRC generators (40_crc R101 to R103, R107, R108) are one shift register, with a width
and a generator each. What holds of the two alike is said of that register. -/

namespace Sys2Proof.Machine

/-- One bit step of the `w`-bit shift register with the generator `x^w + g`: the feedback is the top
bit against the incoming message bit. -/
def lfsrBit {w : Nat} (g r : BitVec w) (d : Bool) : BitVec w :=
  if r.getLsbD (w - 1) ^^ d then (r <<< 1) ^^^ g else r <<< 1

/-- One byte step of the shift register, most significant bit first. -/
def lfsrByte {w : Nat} (g r : BitVec w) (b : Byte) : BitVec w :=
  [7, 6, 5, 4, 3, 2, 1, 0].foldl (fun r k => lfsrBit g r (b.getLsbD k)) r

/-- The shift register after a byte sequence. -/
def lfsr {w : Nat} (g r : BitVec w) (m : List Byte) : BitVec w :=
  m.foldl (lfsrByte g) r

section ShiftRegister

variable {w : Nat} (g : BitVec w)

@[simp] theorem lfsr_nil (r : BitVec w) : lfsr g r [] = r := rfl

@[simp] theorem lfsr_cons (r : BitVec w) (b : Byte) (m : List Byte) :
    lfsr g r (b :: m) = lfsr g (lfsrByte g r b) m := rfl

theorem lfsr_concat (r : BitVec w) (m : List Byte) (b : Byte) :
    lfsr g r (m ++ [b]) = lfsrByte g (lfsr g r m) b :=
  List.foldl_concat ..

/-- A bit step bit by bit: the bit below moves up, and the feedback adds the generator. -/
theorem getLsbD_lfsrBit (r : BitVec w) (d : Bool) (i : Nat) :
    (lfsrBit g r d).getLsbD i =
      ((r <<< 1).getLsbD i ^^ ((r.getLsbD (w - 1) ^^ d) && g.getLsbD i)) := by
  unfold lfsrBit
  cases r.getLsbD (w - 1) ^^ d <;> simp

/-- A bit step is linear: so is the shift, and so is the feedback. -/
theorem lfsrBit_xor (r t : BitVec w) (d e : Bool) :
    lfsrBit g (r ^^^ t) (d ^^ e) = lfsrBit g r d ^^^ lfsrBit g t e := by
  apply BitVec.eq_of_getLsbD_eq
  intro i _
  simp only [getLsbD_lfsrBit, BitVec.shiftLeft_xor_distrib, BitVec.getLsbD_xor,
    Bool.and_xor_distrib_right, Bool.xor_assoc, Bool.xor_left_comm]

theorem lfsrByte_xor (r t : BitVec w) (b c : Byte) :
    lfsrByte g (r ^^^ t) (b ^^^ c) = lfsrByte g r b ^^^ lfsrByte g t c := by
  simp only [lfsrByte, List.foldl_cons, List.foldl_nil, BitVec.getLsbD_xor, lfsrBit_xor]

theorem xorBytes_cons (x y : Byte) (xs ys : List Byte) :
    xorBytes (x :: xs) (y :: ys) = (x ^^^ y) :: xorBytes xs ys := rfl

/-- The register is linear over byte sequences of one length. -/
theorem lfsr_xor {a b : List Byte} (h : a.length = b.length) (r t : BitVec w) :
    lfsr g (r ^^^ t) (xorBytes a b) = lfsr g r a ^^^ lfsr g t b := by
  induction a generalizing b r t with
  | nil =>
    obtain rfl := List.length_eq_zero_iff.1 h.symm
    rfl
  | cons x xs ih =>
    cases b with
    | nil => cases h
    | cons y ys =>
      rw [xorBytes_cons, lfsr_cons, lfsrByte_xor, ih (Nat.succ.inj h), lfsr_cons, lfsr_cons]

end ShiftRegister

/-! The two generators are this register. -/

theorem crc7Raw_eq_lfsr : crc7Raw = lfsr 0x09#7 := rfl

/-- The byte step of CRC16 runs the eight shift steps with no message bit (40_crc R107). -/
theorem crc16Step_eq_lfsrByte_zero (c : Half) (b : Byte) :
    crc16Step c b = lfsrByte 0x1021#16 (c ^^^ (b.setWidth 16 <<< 8)) 0 := by
  have hs : crc16Shift = fun c => lfsrBit 0x1021#16 c false := by
    funext c
    simp [crc16Shift, lfsrBit]
  rw [crc16Step, hs]
  rfl

/-- A byte in the top bits of the register is a byte that still comes in. -/
theorem lfsrByte_of_top (b : Byte) :
    lfsrByte 0x1021#16 (b.setWidth 16 <<< 8) 0 = lfsrByte 0x1021#16 0 b := by
  revert b; decide +kernel

/-- Whether the byte enters the register first or bit by bit is the same. -/
theorem crc16Step_eq_lfsrByte (c : Half) (b : Byte) :
    crc16Step c b = lfsrByte 0x1021#16 c b := by
  calc crc16Step c b
      = lfsrByte 0x1021#16 (c ^^^ (b.setWidth 16 <<< 8)) (0 ^^^ 0) := crc16Step_eq_lfsrByte_zero c b
    _ = lfsrByte 0x1021#16 c 0 ^^^ lfsrByte 0x1021#16 0 b := by rw [lfsrByte_xor, lfsrByte_of_top]
    _ = lfsrByte 0x1021#16 c b := by rw [← lfsrByte_xor]; simp

theorem crc16_eq_lfsr : crc16 = lfsr 0x1021#16 := by
  funext c m
  rw [crc16, lfsr, funext₂ crc16Step_eq_lfsrByte]

end Sys2Proof.Machine
end

section
/-! PROOFS. How the CRC generators continue (40_crc R112), that they are linear (R113), and what they
leave on a message with its own CRC behind it (R114). -/

namespace Sys2Proof.Machine

/-- The finishing step keeps exclusive-or up to the stop bit (40_crc R104). -/
theorem crc7Finish_xor (r t : BitVec 7) :
    crc7Finish (r ^^^ t) = (crc7Finish r ^^^ crc7Finish t) ||| 0x01 := by
  apply BitVec.eq_of_getLsbD_eq
  intro i hi
  cases i with
  | zero => simp [crc7Finish]
  | succ i => simp [crc7Finish, hi]

theorem crc7Raw_append (r : BitVec 7) (a b : List Byte) :
    crc7Raw r (a ++ b) = crc7Raw (crc7Raw r a) b :=
  List.foldl_append

theorem crc16_append (s : Half) (a b : List Byte) : crc16 s (a ++ b) = crc16 (crc16 s a) b :=
  List.foldl_append

/-- A CRC7 register given as a seed is the register (40_crc R100). -/
theorem extractLsb'_setWidth_seven (r : BitVec 7) : (r.setWidth 8).extractLsb' 0 7 = r := by
  revert r; decide +kernel

/-- The packed CRC7 holds the raw register in bits 7:1. -/
theorem extractLsb'_crc7 (s : Byte) (m : List Byte) :
    (crc7 s m).extractLsb' 1 7 = crc7Raw (s.extractLsb' 0 7) m :=
  (crc7Finish_bits _).2.1

/-- Settles O4: the register continues, and a finished CRC7 holds it above the stop bit. -/
theorem crcContinuation : Obligations.CrcContinuation := by
  refine ⟨fun r a b => (crc7Raw_append r a b).symm, fun s a b => (crc16_append s a b).symm,
    fun s m => (extractLsb'_crc7 s m).symm, fun s a b => ?_⟩
  rw [extractLsb'_crc7, crc7, extractLsb'_setWidth_seven, crc7, crc7Raw_append]

/-- Settles O5: by the linearity of the register and of the finishing step. -/
theorem crcLinearity : Obligations.CrcLinearity := by
  intro a b h
  refine ⟨fun s t => ?_, fun s t => ?_, ?_⟩
  · rw [crc16_eq_lfsr, lfsr_xor _ h]
  · rw [crc7Raw_eq_lfsr, lfsr_xor _ h]
  · have hraw : crc7Raw 0 (xorBytes a b) = crc7Raw 0 a ^^^ crc7Raw 0 b := lfsr_xor _ h 0 0
    exact (congrArg crc7Finish hraw).trans (crc7Finish_xor _ _)

theorem crc7_zero (m : List Byte) : crc7 0 m = crc7Finish (crc7Raw 0 m) := rfl

/-- The register fed with itself, finished (40_crc R114). -/
theorem crc7Raw_own_crc (r : BitVec 7) : crc7Raw r [crc7Finish r] = 0x09 := by
  revert r; decide +kernel

/-- A byte in the low bits of the register is shifted up unchanged by a byte step. -/
theorem lfsrByte_of_low (b : Byte) :
    lfsrByte 0x1021#16 (b.setWidth 16) 0 = b.setWidth 16 <<< 8 := by
  revert b; decide +kernel

/-- The register fed with itself, high byte first, is empty (40_crc R114). -/
theorem crc16_own_bytes (c : Half) :
    crc16 c [c.extractLsb' 8 8, c.extractLsb' 0 8] = 0 := by
  have hhi : c ^^^ ((c.extractLsb' 8 8).setWidth 16 <<< 8) = (c.extractLsb' 0 8).setWidth 16 := by
    apply BitVec.eq_of_getLsbD_eq
    intro i hi
    by_cases h : i < 8
    · simp [h, hi]
    · simp [h, hi, show i - 8 < 8 by omega, show 8 + (i - 8) = i by omega]
  simp only [crc16, List.foldl_cons, List.foldl_nil]
  rw [crc16Step_eq_lfsrByte_zero c, hhi, lfsrByte_of_low, crc16Step_eq_lfsrByte_zero,
    BitVec.xor_self]
  rfl

/-- Settles O6: whatever the register holds after the message, its own bytes lead to the residue. -/
theorem crcResidues : Obligations.CrcResidues := by
  intro m
  have hraw : crc7Raw 0 (m ++ [crc7 0 m]) = 0x09 := by
    rw [crc7Raw_append, crc7_zero, crc7Raw_own_crc]
  refine ⟨congrArg crc7Finish hraw, hraw, ?_⟩
  rw [crc16_append, crc16_own_bytes]

end Sys2Proof.Machine
end

section
/-! PROOFS. The shift register computes the remainder of the message polynomial over GF(2) (40_crc
R115). The register is followed in the quotient ring by the generator's polynomial, where a bit step is
a multiplication by `X` and an addition of the message bit; the remainder is read off at the end. -/

namespace Sys2Proof.Machine

open Polynomial

/-! A bit vector as a polynomial. -/

section BitsPoly

variable {w : Nat}

@[simp] theorem coeff_bitsPoly (v : BitVec w) (i : Nat) :
    (bitsPoly v).coeff i = if v.getLsbD i then 1 else 0 := by
  have h : ∀ k, (if v.getLsbD k then (X : (ZMod 2)[X]) ^ k else 0).coeff i =
      if i = k then (if v.getLsbD k then 1 else 0) else 0 := by
    intro k
    split <;> simp [coeff_X_pow]
  rw [bitsPoly, finsetSum_coeff, Finset.sum_congr rfl fun k _ => h k, Finset.sum_ite_eq]
  split
  case isTrue => rfl
  case isFalse hi => rw [BitVec.getLsbD_of_ge v i (by simpa using hi)]; rfl

theorem degree_bitsPoly_lt (v : BitVec w) : (bitsPoly v).degree < w := by
  rw [degree_lt_iff_coeff_zero]
  intro i hi
  simp [BitVec.getLsbD_of_ge v i hi]

theorem bitsPoly_xor (u v : BitVec w) : bitsPoly (u ^^^ v) = bitsPoly u + bitsPoly v := by
  ext i
  rw [coeff_add, coeff_bitsPoly, coeff_bitsPoly, coeff_bitsPoly, BitVec.getLsbD_xor]
  cases u.getLsbD i <;> cases v.getLsbD i <;> decide

/-- A shift multiplies by `X`; the bit that leaves the register is taken off again. -/
theorem bitsPoly_shiftLeft_one (v : BitVec w) :
    bitsPoly v * X = bitsPoly (v <<< 1) + if v.getLsbD (w - 1) then X ^ w else 0 := by
  ext i
  rw [coeff_add, apply_ite (coeff · i), coeff_X_pow, coeff_zero, coeff_bitsPoly]
  cases i with
  | zero =>
    rcases w.eq_zero_or_pos with rfl | hw
    · simp
    · simp [hw.ne]
  | succ i =>
    rw [coeff_mul_X, coeff_bitsPoly]
    rcases lt_trichotomy (i + 1) w with h | rfl | h
    · simp [h, h.ne, BitVec.getLsbD_eq_getElem (show i < w by omega)]
    · simp
    · simp [h.ne', h.not_gt, BitVec.getLsbD_of_ge v i (by omega)]

theorem bitsPoly_byte (b : Byte) :
    bitsPoly b = ∑ i ∈ Finset.range 8, (if b.getLsbD i then 1 else 0) * X ^ i := by
  simp only [bitsPoly, boole_mul]

end BitsPoly

theorem messagePoly_concat (m : List Byte) (b : Byte) :
    messagePoly (m ++ [b]) = messagePoly m * X ^ 8 + bitsPoly b :=
  List.foldl_concat ..

/-! The register in the quotient ring. -/

section Remainder

variable {w : Nat} (g : BitVec w)

/-- The polynomial of the generator `g` of a `w`-bit register. -/
noncomputable def genPoly : (ZMod 2)[X] := X ^ w + bitsPoly g

theorem genPoly_monic : (genPoly g).Monic := monic_X_pow_add (degree_bitsPoly_lt g)

theorem degree_genPoly : (genPoly g).degree = w := by
  have hX : (X ^ w : (ZMod 2)[X]).degree = w := degree_X_pow w
  have hg : (bitsPoly g).degree < (X ^ w : (ZMod 2)[X]).degree := hX.symm ▸ degree_bitsPoly_lt g
  rw [genPoly, degree_add_eq_left_of_degree_lt hg, hX]

/-- A bit step multiplies by `X`, adds the message bit at `X ^ w`, and takes off the generator's
polynomial when the feedback is set. -/
theorem bitsPoly_lfsrBit (r : BitVec w) (d : Bool) :
    bitsPoly (lfsrBit g r d) = bitsPoly r * X + (if d then 1 else 0) * X ^ w +
      if r.getLsbD (w - 1) ^^ d then genPoly g else 0 := by
  have h2 : (X ^ w + X ^ w : (ZMod 2)[X]) = 0 := CharTwo.add_self_eq_zero _
  rw [bitsPoly_shiftLeft_one, lfsrBit, genPoly]
  cases r.getLsbD (w - 1) <;> cases d
  case false.false => simp
  case true.true => simp [add_assoc, h2]
  case false.true | true.false =>
    simp only [bitsPoly_xor, Bool.false_xor, Bool.xor_false, Bool.false_eq_true, if_true, if_false]
    linear_combination - h2

theorem mk_lfsrBit (r : BitVec w) (d : Bool) :
    AdjoinRoot.mk (genPoly g) (bitsPoly (lfsrBit g r d)) =
      AdjoinRoot.mk (genPoly g) (bitsPoly r * X + (if d then 1 else 0) * X ^ w) := by
  rw [bitsPoly_lfsrBit, map_add, apply_ite (AdjoinRoot.mk (genPoly g)), AdjoinRoot.mk_self, map_zero,
    ite_self, add_zero]

theorem mk_lfsrByte (r : BitVec w) (b : Byte) :
    AdjoinRoot.mk (genPoly g) (bitsPoly (lfsrByte g r b)) =
      AdjoinRoot.mk (genPoly g) (bitsPoly r * X ^ 8 + bitsPoly b * X ^ w) := by
  simp only [lfsrByte, List.foldl_cons, List.foldl_nil, mk_lfsrBit, map_add, map_mul, bitsPoly_byte,
    Finset.sum_range_succ, Finset.sum_range_zero, map_pow, map_zero]
  ring

theorem mk_lfsr (s : BitVec w) (m : List Byte) :
    AdjoinRoot.mk (genPoly g) (bitsPoly (lfsr g s m)) =
      AdjoinRoot.mk (genPoly g) (bitsPoly s * X ^ (8 * m.length) + messagePoly m * X ^ w) := by
  induction m using List.reverseRecOn with
  | nil => simp [messagePoly]
  | append_singleton m b ih =>
    have hpoly : bitsPoly s * X ^ (8 * (m ++ [b]).length) + messagePoly (m ++ [b]) * X ^ w =
        (bitsPoly s * X ^ (8 * m.length) + messagePoly m * X ^ w) * X ^ 8 + bitsPoly b * X ^ w := by
      rw [messagePoly_concat, List.length_append, List.length_singleton]
      ring
    rw [lfsr_concat, hpoly, mk_lfsrByte]
    simp only [map_add, map_mul, ih]

/-- The register is the remainder: it is congruent to the message polynomial, and short enough. -/
theorem bitsPoly_lfsr (s : BitVec w) (m : List Byte) :
    bitsPoly (lfsr g s m) =
      (bitsPoly s * X ^ (8 * m.length) + messagePoly m * X ^ w) %ₘ genPoly g := by
  have hlt : (bitsPoly (lfsr g s m)).degree < (genPoly g).degree := by
    rw [degree_genPoly]
    exact degree_bitsPoly_lt _
  rw [← modByMonic_eq_of_dvd_sub (genPoly_monic g) (AdjoinRoot.mk_eq_mk.1 (mk_lfsr g s m)),
    (modByMonic_eq_self_iff (genPoly_monic g)).2 hlt]

end Remainder

theorem genPoly_crc7 : genPoly 0x09#7 = X ^ 7 + X ^ 3 + 1 := by
  have hg : bitsPoly 0x09#7 = 1 + X ^ 3 := by simp [bitsPoly, Finset.sum_range_succ]
  rw [genPoly, hg]
  ring

theorem genPoly_crc16 : genPoly 0x1021#16 = X ^ 16 + X ^ 12 + X ^ 5 + 1 := by
  have hg : bitsPoly 0x1021#16 = 1 + X ^ 5 + X ^ 12 := by simp [bitsPoly, Finset.sum_range_succ]
  rw [genPoly, hg]
  ring

/-- Settles O7: both generators are the register of their polynomial. -/
theorem crcIsPolynomialRemainder : Obligations.CrcIsPolynomialRemainder := by
  refine ⟨fun s m => ?_, fun s m => ?_⟩
  · rw [crc7Raw_eq_lfsr, bitsPoly_lfsr, genPoly_crc7]
  · rw [crc16_eq_lfsr, bitsPoly_lfsr, genPoly_crc16]

end Sys2Proof.Machine
end

section
/-! PROOFS. The 8-bit realisation of CRC7 beside the 7-bit register (40_crc R116), the CRC operations
of the host (R105, R110) and the printed values (R103, R108). -/

namespace Sys2Proof.Machine

/-- A bit step of the 8-bit realisation (40_crc R116). -/
theorem crc7Bit8_bits (v : Byte) (d : Bool) :
    (crc7Bit8 v d).extractLsb' 0 7 = crc7Bit (v.extractLsb' 0 7) d ∧
      (crc7Bit8 v d).getLsbD 7 = v.getLsbD 6 := by
  revert v d; decide +kernel

theorem crc7Step8_low (v : Byte) (b : Byte) :
    (crc7Step8 v b).extractLsb' 0 7 = crc7Step (v.extractLsb' 0 7) b :=
  (List.foldl_hom (BitVec.extractLsb' 0 7) fun v k => (crc7Bit8_bits v (b.getLsbD k)).1.symm).symm

/-- The finishing step of the 8-bit realisation drops bit 7. -/
theorem crc7Finish_low (v : Byte) : crc7Finish (v.extractLsb' 0 7) = v <<< 1 ||| 0x01#8 := by
  revert v; decide +kernel

/-- Settles O8: bits 6:0 follow the register at every step, and the finishing step drops bit 7. -/
theorem crc7EightBitRealisation : Obligations.Crc7EightBitRealisation := by
  refine ⟨crc7Bit8_bits, fun seed bytes => ?_⟩
  have hraw : (bytes.foldl crc7Step8 seed).extractLsb' 0 7 = crc7Raw (seed.extractLsb' 0 7) bytes :=
    (List.foldl_hom (BitVec.extractLsb' 0 7) fun v b => (crc7Step8_low v b).symm).symm
  rw [crc7, ← hraw, crc7Finish_low, crc7By8]

/-- Settles O1: the operation is one response, and the printed example is computed. -/
theorem crc7OperationResult : Obligations.Crc7OperationResult :=
  ⟨fun _ _ _ => rfl, by decide +kernel⟩

/-- Settles O2: the operation is one response, and the printed example is computed. -/
theorem crc16OperationResult : Obligations.Crc16OperationResult :=
  ⟨fun _ _ _ => rfl, by decide +kernel⟩

/-- The corner cases and examples of CRC7 (40_crc R103). -/
theorem crc7_printed :
    crc7 0 [] = 0x01 ∧ crc7 0x7F [] = 0xFF ∧ crc7 0xFF [] = 0xFF ∧ crc7 0 [0x00] = 0x01 ∧
      crc7 0 [0x01] = 0x13 ∧ crc7 0 [0x80] = 0x83 ∧ crc7 0 [0xFF] = 0xF3 ∧
      crc7 0 [0x40, 0, 0, 0, 0] = 0x95 := by
  decide +kernel

/-- The one-byte values of CRC16 (40_crc R108). -/
theorem crc16_printed_bytes :
    crc16 0 [0x00] = 0x0000 ∧ crc16 0 [0x01] = 0x1021 ∧ crc16 0 [0x80] = 0x9188 ∧
      crc16 0 [0xFF] = 0x1EF0 := by
  decide +kernel

/-- Zero bytes leave the empty register empty. -/
theorem crc16_zeros (n : Nat) : crc16 0 (List.replicate n 0x00) = 0 := by
  induction n with
  | zero => rfl
  | succ n ih => exact ih

/-- `crc16` for long messages: the test asks for the register before each byte, so that the kernel
computes it there and not for all bytes at the end. -/
def crc16Eager (c : Half) : List Byte → Half
  | [] => c
  | b :: m => if c = 0 then crc16Eager (crc16Step 0 b) m else crc16Eager (crc16Step c b) m

theorem crc16Eager_eq (c : Half) (m : List Byte) : crc16Eager c m = crc16 c m := by
  induction m generalizing c with
  | nil => rfl
  | cons b m ih =>
    unfold crc16Eager
    split
    case isTrue h => rw [ih, h]; rfl
    case isFalse => rw [ih]; rfl

theorem crc16_printed_ones : crc16 0 (List.replicate 512 0xFF) = 0x7FA1 := by
  rw [← crc16Eager_eq]
  decide +kernel

/-- Settles O3: each value by running the generator on its bytes. -/
theorem crcPrintedValues : Obligations.CrcPrintedValues := by
  obtain ⟨h1, h2, h3, h4, h5, h6, h7, h8⟩ := crc7_printed
  obtain ⟨k1, k2, k3, k4⟩ := crc16_printed_bytes
  exact ⟨h1, h2, h3, h4, h5, h6, h7, h8, fun _ => rfl, k1, k2, k3, k4, crc16_zeros 512,
    crc16_printed_ones, crc16OperationResult.2⟩

end Sys2Proof.Machine
end

section
/-! PROOFS. The command frames (30_encoding R70, R81, 41 R120, R121, R126 to R138): their layout, the
frames the rules print, and that a frame two rows share runs the same (log 8). -/

namespace Sys2Proof

open Sys2Proof.Machine

/-- An argument's value from its four bytes (20_memory R54). -/
theorem toNat_of_argBytes (a : Arg) :
    a.toNat = 2 ^ 24 * (a.extractLsb' 24 8).toNat + 2 ^ 16 * (a.extractLsb' 16 8).toNat +
      2 ^ 8 * (a.extractLsb' 8 8).toNat + (a.extractLsb' 0 8).toNat := by
  simp only [BitVec.extractLsb'_toNat, Nat.shiftRight_eq_div_pow]
  omega

/-- Settles O9: the first byte, the argument's bytes and the finished CRC7 each by its own lemma. -/
theorem frameLayout : Obligations.FrameLayout := by
  intro idx arg
  obtain ⟨-, -, -, hfirst⟩ := frame_first_byte idx
  obtain ⟨-, -, hcrc⟩ := crc7Finish_bits (crc7Raw 0 (frameHead idx arg))
  rw [← crc7_zero] at hcrc
  have hraw : (crc7 0 (frameHead idx arg)).toNat / 2 = (crc7Raw 0 (frameHead idx arg)).toNat := by
    omega
  exact ⟨_, _, _, _, _, _, rfl, hfirst, by omega, by omega, toNat_of_argBytes arg, rfl, by omega,
    hraw⟩

/-- Settles O10: each frame is evaluated. -/
theorem printedFrames : Obligations.PrintedFrames := by
  unfold Obligations.PrintedFrames
  decide +kernel

/-- An instruction runs as the row that its word is read as: an emitted frame as its `SendCommand`,
and a frame that is never emitted is read as itself. -/
theorem exec_canonical (i : Instr) (s : State) : exec (canonical s.cfg i) s = exec i s := by
  cases hf : frameOf s.cfg i with
  | none => rw [canonical_of_no_frame hf]
  | some p =>
    cases he : isEmitted s.cfg p.1 p.2 with
    | true => rw [exec_frameOf hf he, exec_frameOf (frameOf_canonical hf) he]
    | false =>
      have hframe : ∃ idx arg, i = .frame idx arg := by
        by_contra! hi
        rw [isEmitted_of_row hf hi] at he
        cases he
      obtain ⟨idx, arg, rfl⟩ := hframe
      cases hf
      rw [canonical_frame_of_not_emitted he]

/-- Settles O13: instructions with one word are read as one row, and each runs as that row. -/
theorem rowsWithOneWordRunTheSame : Obligations.RowsWithOneWordRunTheSame := by
  intro i j s hi hj h
  have hcan : canonical s.cfg i = canonical s.cfg j := by
    have hread := decode_encode s.cfg hi []
    rw [h, decode_encode s.cfg hj []] at hread
    exact (congrArg Prod.fst (Except.ok.inj hread)).symm
  rw [← exec_canonical i, hcan, exec_canonical]

end Sys2Proof
end

section
/-! PROOFS. The engine's `SendCommand` (41 R122 to R125, R140) and the rows that stand for it
(30_encoding R81, R88, 20_memory R62; log 6, log 22, log 23). -/

namespace Sys2Proof.Machine

/-- A row whose frame the engine emits sends it while the card is selected. -/
theorem sendsCommand_of_frameOf {i : Instr} {s : State} {idx : CmdIndex} {arg : Arg}
    (hs : s.cs = true) (h : frameOf s.cfg i = some (idx, arg))
    (he : isEmitted s.cfg idx arg = true) : SendsCommand i s idx arg := by
  obtain ⟨r, ev, b, hev, ht, hc⟩ := s.command_spec idx arg
  exact ⟨r, ev, b, hev, ht, by rw [exec_of_frameOf h he hs, hc]⟩

/-- A row whose frame the engine emits is refused while the card is released. -/
theorem exec_of_released {i : Instr} {s : State} {p : CmdIndex × Arg} (hs : s.cs = false)
    (h : frameOf s.cfg i = some p) (he : isEmitted s.cfg p.1 p.2 = true) :
    exec i s = .refused .cardReleased := by
  rw [exec_frameOf h he, whileSelected_false hs]

/-- The map of 30_encoding R81 with the indices of the default configuration (00_scope R11): written
out, it is the printed table in another order. -/
theorem isEmitted_default (idx : CmdIndex) (arg : Arg) :
    isEmitted Cfg.default idx arg = true ↔
      (arg = 0 ∧ (idx = 0 ∨ idx = 1 ∨ idx = 9 ∨ idx = 10 ∨ idx = 12 ∨ idx = 55)) ∨
      (arg = 512 ∧ idx = 16) ∨ (arg = 0x40000000 ∧ idx = 41) ∨
      idx = 17 ∨ idx = 18 ∨ idx = 24 ∨ idx = 25 := by
  simp only [isEmitted, fixedRows, frameOf, Cfg.default, List.any_cons, List.any_nil, Bool.or_eq_true,
    beq_iff_eq, Option.some.injEq, Prod.mk.injEq, Bool.or_false]
  grind

/-- Settles O32: an emitted frame by what the chip-select line allows, any other by its refusal. -/
theorem genericFrameSendsCommand : Obligations.GenericFrameSendsCommand :=
  ⟨fun _ _ _ he =>
      ⟨fun hs => sendsCommand_of_frameOf hs rfl he, fun hs => exec_of_released hs rfl he⟩,
    fun _ _ _ he => exec_frame_not_emitted he, isEmitted_default⟩

/-- `SendCommand` is the padding byte, six frame bytes and 1 to 16 polls, each one exchange
(41 R140). -/
theorem CommandEvents.counts {idx : CmdIndex} {arg : Arg} {r : Byte} {ev : List BusEvent}
    (h : CommandEvents idx arg r ev) :
    8 ≤ exchanges ev ∧ exchanges ev ≤ 23 ∧ ev.length = exchanges ev := by
  obtain ⟨got, idles, hgot, ⟨-, hi, rfl⟩ | ⟨-, hi, rfl⟩⟩ := h
  · simp [hgot, hi, Bus.frame_length, respPollMax]
  · simp [hgot, Bus.frame_length]
    have hpolls : idles < 16 := hi
    omega

/-- Settles O33: the events of `SendCommand` are counted once, and a command row with a next state is
`SendCommand`. -/
theorem commandExchangeCount : Obligations.CommandExchangeCount := by
  refine ⟨fun idx arg b => ?_, fun i s t hf hn => ?_⟩
  · obtain ⟨ev, hev, ht⟩ := b.command_spec idx arg
    exact ⟨ev, ht, hev.counts⟩
  · obtain ⟨p, hp⟩ := Option.isSome_iff_exists.1 hf
    have hs : s.cs = true := cs_of_next hn (needsSelect_of_frameOf hp)
    obtain ⟨r, ev, b, hev, ht, he⟩ := sendsCommand_of_frameOf hs hp (isEmitted_of_next hn hp)
    obtain ⟨hlo, hhi, hlen⟩ := hev.counts
    rw [hn] at he
    cases he
    exact ⟨ev, ht, hlo, hhi, hlen, rfl⟩

/-- Settles O34: each of the thirteen rows has its frame in the map of 30_encoding R81. -/
theorem commandRowsSendTheirFrames : Obligations.CommandRowsSendTheirFrames := by
  refine ⟨fun s addr hs => ?_, fun i s hf hi hs => ?_⟩
  · have row {i : Instr} {idx : CmdIndex} {arg : Arg} (h : frameOf s.cfg i = some (idx, arg))
        (hi : ∀ x a, i ≠ .frame x a) : SendsCommand i s idx arg :=
      sendsCommand_of_frameOf hs h (isEmitted_of_row h hi)
    exact ⟨row rfl nofun, row rfl nofun, row rfl nofun, row rfl nofun, row rfl nofun, row rfl nofun,
      row rfl nofun, row rfl nofun, row rfl nofun, row rfl nofun, row rfl nofun, row rfl nofun,
      row rfl nofun⟩
  · obtain ⟨p, hp⟩ := Option.isSome_iff_exists.1 hf
    exact exec_of_released hs hp (isEmitted_of_row hp hi)

end Sys2Proof.Machine
end

section
/-! PROOFS. The Register Decoder (42): the fields of a raw register as bit ranges of its 128-bit
numbering (R150), the capacity and its bounds (R160 to R164). The positions are the spec's, from general
knowledge (93 G4, G5; log 14). -/

namespace Sys2Proof.Machine

/-! Bit ranges. -/

/-- A bit range of a bit range. -/
theorem extractLsb'_extractLsb'_of_add_le {N : Nat} (x : BitVec N) (k l p w : Nat) (h : p + w ≤ l) :
    (x.extractLsb' k l).extractLsb' p w = x.extractLsb' (k + p) w := by
  apply BitVec.eq_of_getLsbD_eq
  intro i hi
  simp [hi, show p + i < l by omega, Nat.add_assoc]

/-- Two adjacent bit ranges, joined by shift and or at any width of the result, are one range. -/
theorem join_fields {N : Nat} (x : BitVec N) (k a b n : Nat) :
    ((x.extractLsb' (k + b) a).setWidth n <<< b) ||| (x.extractLsb' k b).setWidth n =
      (x.extractLsb' k (a + b)).setWidth n := by
  apply BitVec.eq_of_getLsbD_eq
  intro i hi
  simp only [BitVec.getLsbD_or, BitVec.getLsbD_shiftLeft, BitVec.getLsbD_setWidth,
    BitVec.getLsbD_extractLsb']
  by_cases h : i < b
  · simp [h, hi, show i < a + b by omega]
  · have hsum : k + b + (i - b) = k + i := by omega
    have hlt : i - b < a ↔ i < a + b := by omega
    simp [h, hi, hsum, hlt, show i - b < n by omega]

/-- Three adjacent bit ranges, joined by shifts and or. -/
theorem join_three_fields {N : Nat} (x : BitVec N) (k a b c n : Nat) :
    ((x.extractLsb' (k + c + b) a).setWidth n <<< (b + c)) |||
        ((x.extractLsb' (k + c) b).setWidth n <<< c) ||| (x.extractLsb' k c).setWidth n =
      (x.extractLsb' k (a + b + c)).setWidth n := by
  rw [BitVec.shiftLeft_add, ← BitVec.shiftLeft_or_distrib, join_fields, join_fields]

/-- A byte of a raw register is the eight bits at its place in the numbering (42 R150). -/
theorem getElem_eq_regBits_field (v : Reg16) (j : Nat) (hj : j < 16 := by omega) :
    v[j] = (regBits v).extractLsb' (8 * (15 - j)) 8 := by
  apply BitVec.eq_of_getLsbD_eq
  intro i hi
  rw [regBits_field_getLsbD v _ 8 i hi (by omega)]
  have hbyte : 15 - (8 * (15 - j) + i) / 8 = j := by omega
  have hbit : (8 * (15 - j) + i) % 8 = i := by omega
  simp only [hbyte, hbit]

/-- Bits within one byte of a raw register. -/
theorem getElem_bits_eq_regBits_field (v : Reg16) (j p w : Nat) (hj : j < 16 := by omega)
    (h : p + w ≤ 8 := by omega) :
    v[j].extractLsb' p w = (regBits v).extractLsb' (8 * (15 - j) + p) w := by
  rw [getElem_eq_regBits_field v j hj, extractLsb'_extractLsb'_of_add_le _ _ _ _ _ h]

/-! The CID record (42 R151, R152). -/

/-- PSN is bytes 9 to 12. -/
theorem joinArg_eq_regBits_field (v : Reg16) :
    joinArg v[9] v[10] v[11] v[12] = (regBits v).extractLsb' 24 32 := by
  rw [← joinArg_bytes ((regBits v).extractLsb' 24 32)]
  simp only [getElem_eq_regBits_field, extractLsb'_extractLsb'_of_add_le, Nat.reduceSub,
    Nat.reduceMul, Nat.reduceAdd, Nat.reduceLeDiff, le_refl]

/-- The year of MDT is the low half of byte 13 and the high half of byte 14. -/
theorem mdtYear_eq_regBits_field (v : Reg16) :
    ((v[13].extractLsb' 0 4).setWidth 8 <<< 4) ||| (v[14].extractLsb' 4 4).setWidth 8 =
      (regBits v).extractLsb' 12 8 := by
  rw [getElem_bits_eq_regBits_field v 13 0 4, getElem_bits_eq_regBits_field v 14 4 4,
    join_fields _ 12 4 4, BitVec.setWidth_eq]

theorem exec_getCid_of_active {s : State} (h : s.active = true) :
    exec .getCid s = .next (s.respond .ok (.cid (decodeCid s.cid))) := by
  simp [exec, execGetCid, State.getCid, h]

/-- Settles O28: the fields within a byte, and the two that join bytes. -/
theorem cidFieldsByBitPosition : Obligations.CidFieldsByBitPosition := by
  intro s hs n
  rw [exec_getCid_of_active hs, decodeCid, joinArg_eq_regBits_field, mdtYear_eq_regBits_field]
  simp only [getElem_eq_regBits_field, extractLsb'_extractLsb'_of_add_le, Nat.reduceSub,
    Nat.reduceMul, Nat.reduceAdd, Nat.reduceLeDiff, le_refl, n]

/-! The CSD record (42 R155 to R158). -/

/-- C_SIZE of the legacy layout spans bytes 6, 7 and 8. -/
theorem legacy_cSize_eq_regBits_field (d : Reg16) :
    ((d[6].extractLsb' 0 2).setWidth 12 <<< 10) ||| (d[7].setWidth 12 <<< 2)
        ||| (d[8].extractLsb' 6 2).setWidth 12 =
      (regBits d).extractLsb' 62 12 := by
  rw [getElem_bits_eq_regBits_field d 6 0 2, getElem_eq_regBits_field d 7,
    getElem_bits_eq_regBits_field d 8 6 2,
    join_three_fields _ 62 2 8 2, BitVec.setWidth_eq]

/-- C_SIZE_MULT spans bytes 9 and 10. -/
theorem cSizeMult_eq_regBits_field (d : Reg16) :
    ((d[9].extractLsb' 0 2).setWidth 3 <<< 1) ||| (d[10].extractLsb' 7 1).setWidth 3 =
      (regBits d).extractLsb' 47 3 := by
  rw [getElem_bits_eq_regBits_field d 9 0 2, getElem_bits_eq_regBits_field d 10 7 1,
    join_fields _ 47 2 1, BitVec.setWidth_eq]

/-- C_SIZE of the high-capacity layout spans bytes 7, 8 and 9. -/
theorem highCapacity_cSize_eq_regBits_field (d : Reg16) :
    ((d[7].extractLsb' 0 6).setWidth 22 <<< 16) ||| (d[8].setWidth 22 <<< 8) ||| d[9].setWidth 22 =
      (regBits d).extractLsb' 48 22 := by
  rw [getElem_bits_eq_regBits_field d 7 0 6, getElem_eq_regBits_field d 8,
    getElem_eq_regBits_field d 9, join_three_fields _ 48 6 8 8, BitVec.setWidth_eq]

/-- The CSD record by the bits of the numbering: the version field selects the variant. -/
theorem decodeCsd_eq_regBits_fields (d : Reg16) :
    decodeCsd d =
      if (regBits d).extractLsb' 126 2 = 0 then
        .legacy ((regBits d).extractLsb' 80 4) ((regBits d).extractLsb' 62 12)
          ((regBits d).extractLsb' 47 3)
      else if (regBits d).extractLsb' 126 2 = 1 then
        .highCapacity ((regBits d).extractLsb' 48 22)
      else .unknown ((regBits d).extractLsb' 126 2) := by
  rw [decodeCsd, legacy_cSize_eq_regBits_field, cSizeMult_eq_regBits_field,
    highCapacity_cSize_eq_regBits_field, getElem_bits_eq_regBits_field d 0 6 2,
    getElem_bits_eq_regBits_field d 5 0 4]

theorem exec_getCsd_of_active {s : State} (h : s.active = true) :
    exec .getCsd s = .next (s.respond .ok (.csd (decodeCsd s.csd))) := by
  simp [exec, execGetCsd, State.getCsd, h]

/-- Settles O29: the record by the bits of the numbering. -/
theorem csdFieldsByBitPosition : Obligations.CsdFieldsByBitPosition := by
  intro s hs n v
  rw [exec_getCsd_of_active hs, decodeCsd_eq_regBits_fields]

/-! The capacity (42 R160 to R164). -/

/-- A legacy capacity is at most that of the largest fields (42 R163). -/
theorem legacy_capacity_le (r : BitVec 4) (c : BitVec 12) (m : BitVec 3) :
    (c.toNat + 1) * 2 ^ (m.toNat + r.toNat + 2) ≤ 2 ^ 36 := by
  calc (c.toNat + 1) * 2 ^ (m.toNat + r.toNat + 2)
      ≤ 2 ^ 12 * 2 ^ 24 := Nat.mul_le_mul (by omega) (Nat.pow_le_pow_right (by decide) (by omega))
    _ = 2 ^ 36 := by rw [← Nat.pow_add]

/-- A high-capacity capacity is at most that of the largest C_SIZE (42 R163). -/
theorem highCapacity_capacity_le (c : BitVec 22) : (c.toNat + 1) * 524288 ≤ 2 ^ 41 := by
  omega

/-- From an exponent of 7 on, a legacy capacity is a multiple of 512 = 2^9 (42 R163). -/
theorem dvd_legacy_capacity (r : BitVec 4) (c : BitVec 12) (m : BitVec 3)
    (h : 7 ≤ m.toNat + r.toNat) : 512 ∣ (c.toNat + 1) * 2 ^ (m.toNat + r.toNat + 2) :=
  Dvd.dvd.mul_left (Nat.pow_dvd_pow 2 (by omega : 9 ≤ m.toNat + r.toNat + 2)) _

/-- Settles O31: both layouts by their bounds; the largest fields reach them. -/
theorem capacityBounds : Obligations.CapacityBounds := by
  refine ⟨fun r c m n h => ?_, fun c n h => ?_, by decide, by decide⟩
  · cases h
    exact ⟨legacy_capacity_le r c m, fun he => Nat.mod_eq_zero_of_dvd (dvd_legacy_capacity r c m he)⟩
  · cases h
    exact ⟨highCapacity_capacity_le c, by omega⟩

theorem exec_capacityBytes_of_active {s : State} (h : s.active = true) :
    exec .capacityBytes s =
      .next (s.respond (capacityResult s.csd).1 (capacityResult s.csd).2) := by
  simp [exec, execCapacityBytes, State.capacityBytes, h]

theorem capacityResult_of_some {d : Reg16} {n : Nat} (h : (decodeCsd d).capacity = some n) :
    capacityResult d = (.ok, .bytes (BitVec.ofNat 64 n)) := by
  simp [capacityResult, h]

theorem capacityResult_of_none {d : Reg16} (h : (decodeCsd d).capacity = none) :
    capacityResult d = (.decodeFail, .bytes 0) := by
  simp [capacityResult, h]

/-- A capacity fits the 64-bit response value (42 R162). -/
theorem capacity_lt {d : CsdRecord} {n : Nat} (h : d.capacity = some n) : n < 2 ^ 64 := by
  obtain ⟨hlegacy, hhigh, -, -⟩ := capacityBounds
  cases d with
  | legacy r c m => exact (hlegacy r c m n h).1.trans_lt (by decide)
  | highCapacity c => exact (hhigh c n h).1.trans_lt (by decide)
  | unknown v => cases h

/-- A known capacity is answered exactly, as a 64-bit value. -/
theorem exec_capacityBytes_of_some {s : State} {n : Nat} (hs : s.active = true)
    (h : (decodeCsd s.csd).capacity = some n) :
    ∃ bytes : BitVec 64,
      exec .capacityBytes s = .next (s.respond .ok (.bytes bytes)) ∧ bytes.toNat = n := by
  refine ⟨BitVec.ofNat 64 n, ?_, by rw [BitVec.toNat_ofNat, Nat.mod_eq_of_lt (capacity_lt h)]⟩
  rw [exec_capacityBytes_of_active hs, capacityResult_of_some h]

/-- Settles O30: the version field selects the record, and its capacity is what is answered. -/
theorem capacityFormulas : Obligations.CapacityFormulas := by
  intro s hs n v size
  have hd := decodeCsd_eq_regBits_fields s.csd
  by_cases h0 : v = 0
  · rw [if_pos h0] at hd
    obtain ⟨bytes, hexec, hbytes⟩ := exec_capacityBytes_of_some hs (congrArg CsdRecord.capacity hd)
    exact ⟨.ok, bytes, hexec, fun _ => ⟨rfl, hbytes⟩, fun h1 => absurd (h0.symm.trans h1) (by decide),
      fun h => absurd h0 h⟩
  rw [if_neg h0] at hd
  by_cases h1 : v = 1
  · rw [if_pos h1] at hd
    obtain ⟨bytes, hexec, hbytes⟩ := exec_capacityBytes_of_some hs (congrArg CsdRecord.capacity hd)
    exact ⟨.ok, bytes, hexec, fun h => absurd h h0, fun _ => ⟨rfl, hbytes⟩, fun _ h => absurd h1 h⟩
  · rw [if_neg h1] at hd
    have hexec := exec_capacityBytes_of_active hs
    rw [capacityResult_of_none (congrArg CsdRecord.capacity hd)] at hexec
    exact ⟨.decodeFail, 0, hexec, fun h => absurd h h0, fun h => absurd h h1, fun _ _ => ⟨rfl, rfl⟩⟩

end Sys2Proof.Machine
end

section
/-! PROOFS. `INITIALIZE` (43): its stages in order with the events of each (R170 to R176), and
`IS_ACTIVE` (R177). -/

namespace Sys2Proof.Machine

/-- Settles O27: `IS_ACTIVE` only responds. -/
theorem isActiveResult : Obligations.IsActiveResult := fun _ => rfl

/-! The events of the stages, and how they make up those of a whole bring-up. -/

/-- The events of stage 1 (43 R172). -/
abbrev ResetEvents (cfg : Cfg) : Bool → Byte → Byte → List BusEvent → Prop :=
  StageEvents (CommandEvents idxReset 0) r1Idle cfg.stageDelayMs cfg.resetAttempts

/-- The events of stage 2 (43 R173). -/
abbrev NegotiationEvents (cfg : Cfg) : Bool → Byte → Byte → List BusEvent → Prop :=
  StageEvents (NegotiateEvents cfg) r1Ready cfg.stageDelayMs cfg.initAttempts

/-- The events of stage 3 (43 R174). -/
abbrev BlockLenEvents (cfg : Cfg) : Bool → Byte → Byte → List BusEvent → Prop :=
  StageEvents (CommandEvents cfg.idxSetBlocklen 512) r1Ready cfg.stageDelayMs cfg.blkLenAttempts

namespace InitEvents

section

variable {cfg : Cfg} {cid csd : Reg16} {before r₁ r₂ r₃ r₄ last : Byte}
  {e₁ e₂ e₃ e₄ e₅ : List BusEvent}

theorem of_reset_failed (h₁ : ResetEvents cfg false before last e₁) :
    InitEvents cfg .initFailReset Reg16.zero Reg16.zero before last e₁ :=
  ⟨e₁, [], [], [], [], last, last, last, last, by simp, h₁, by simp, by simp, by simp⟩

theorem of_negotiation_failed (h₁ : ResetEvents cfg true before r₁ e₁)
    (h₂ : NegotiationEvents cfg false r₁ last e₂) :
    InitEvents cfg .initFailNegotiation Reg16.zero Reg16.zero before last (e₁ ++ e₂) :=
  ⟨e₁, e₂, [], [], [], r₁, last, last, last, by simp, h₁, h₂, by simp, by simp⟩

theorem of_blockLen_failed (h₁ : ResetEvents cfg true before r₁ e₁)
    (h₂ : NegotiationEvents cfg true r₁ r₂ e₂) (h₃ : BlockLenEvents cfg false r₂ last e₃) :
    InitEvents cfg .initFailBlocklen Reg16.zero Reg16.zero before last (e₁ ++ e₂ ++ e₃) :=
  ⟨e₁, e₂, e₃, [], [], r₁, r₂, last, last, by simp, h₁, h₂, h₃, by simp⟩

theorem of_cid_failed (h₁ : ResetEvents cfg true before r₁ e₁)
    (h₂ : NegotiationEvents cfg true r₁ r₂ e₂) (h₃ : BlockLenEvents cfg true r₂ r₃ e₃)
    (h₄ : RetrieveEvents cfg cfg.idxReadCid false cid last e₄) :
    InitEvents cfg .initFailRegister cid Reg16.zero before last (e₁ ++ e₂ ++ e₃ ++ e₄) :=
  ⟨e₁, e₂, e₃, e₄, [], r₁, r₂, r₃, last, by simp, h₁, h₂, h₃, .inr (.inr (.inl ⟨rfl, h₄, rfl, rfl⟩))⟩

theorem of_csd_failed (h₁ : ResetEvents cfg true before r₁ e₁)
    (h₂ : NegotiationEvents cfg true r₁ r₂ e₂) (h₃ : BlockLenEvents cfg true r₂ r₃ e₃)
    (h₄ : RetrieveEvents cfg cfg.idxReadCid true cid r₄ e₄)
    (h₅ : RetrieveEvents cfg cfg.idxReadCsd false csd last e₅) :
    InitEvents cfg .initFailRegister cid csd before last (e₁ ++ e₂ ++ e₃ ++ e₄ ++ e₅) :=
  ⟨e₁, e₂, e₃, e₄, e₅, r₁, r₂, r₃, r₄, rfl, h₁, h₂, h₃, .inr (.inl ⟨rfl, h₄, h₅⟩)⟩

theorem of_ok (h₁ : ResetEvents cfg true before r₁ e₁)
    (h₂ : NegotiationEvents cfg true r₁ r₂ e₂) (h₃ : BlockLenEvents cfg true r₂ r₃ e₃)
    (h₄ : RetrieveEvents cfg cfg.idxReadCid true cid r₄ e₄)
    (h₅ : RetrieveEvents cfg cfg.idxReadCsd true csd last e₅) :
    InitEvents cfg .ok cid csd before last (e₁ ++ e₂ ++ e₃ ++ e₄ ++ e₅) :=
  ⟨e₁, e₂, e₃, e₄, e₅, r₁, r₂, r₃, r₄, rfl, h₁, h₂, h₃, .inl ⟨rfl, h₄, h₅⟩⟩

end

end InitEvents

/-- A register that was not found is zero (43 R175). -/
theorem RetrieveEvents.reg_eq_zero {cfg : Cfg} {idx : CmdIndex} {reg : Reg16} {last : Byte}
    {ev : List BusEvent} (h : RetrieveEvents cfg idx false reg last ev) : reg = Reg16.zero := by
  obtain ⟨_, _, _, -, -, ⟨-, h, -⟩ | ⟨h, -⟩⟩ := h
  · exact h
  · cases h

namespace State

/-! Where each stage goes on: to the next stage, or to the release (43 R176). -/

section

variable {n : Nat} {s t u : State}

theorem stage1_of_failed (h : resetLoop n s = t) (hn : n = s.cfg.resetAttempts)
    (ht : t.resetAck = false) :
    s.stage1 = t.releaseSeq.respond .initFailReset .none := by
  simp only [stage1, ← hn, h, ht]; rfl

theorem stage1_of_done (h : resetLoop n s = t) (hn : n = s.cfg.resetAttempts)
    (ht : t.resetAck = true) :
    s.stage1 = t.stage2 := by
  simp only [stage1, ← hn, h, ht, if_true]

theorem stage2_of_failed (h : negotiateLoop n s = t) (hn : n = s.cfg.initAttempts)
    (ht : t.initAck = false) :
    s.stage2 = t.releaseSeq.respond .initFailNegotiation .none := by
  simp only [stage2, ← hn, h, ht]; rfl

theorem stage2_of_done (h : negotiateLoop n s = t) (hn : n = s.cfg.initAttempts)
    (ht : t.initAck = true) :
    s.stage2 = t.stage3 := by
  simp only [stage2, ← hn, h, ht, if_true]

theorem stage3_of_failed (h : blockLenLoop n s = t) (hn : n = s.cfg.blkLenAttempts)
    (ht : t.blkLenOk = false) :
    s.stage3 = t.releaseSeq.respond .initFailBlocklen .none := by
  simp only [stage3, ← hn, h, ht]; rfl

theorem stage3_of_done (h : blockLenLoop n s = t) (hn : n = s.cfg.blkLenAttempts)
    (ht : t.blkLenOk = true) :
    s.stage3 = t.stage4 := by
  simp only [stage3, ← hn, h, ht, if_true]

theorem stage4_of_cid_missing (h : s.retrieve s.cfg.idxReadCid setCid = (false, t)) :
    s.stage4 = t.releaseSeq.respond .initFailRegister .none := by
  simp only [stage4, h]; rfl

theorem stage4_of_csd_missing (h : s.retrieve s.cfg.idxReadCid setCid = (true, t))
    (h' : t.retrieve s.cfg.idxReadCsd setCsd = (false, u)) :
    s.stage4 = u.releaseSeq.respond .initFailRegister .none := by
  simp only [stage4, h, h']; rfl

theorem stage4_of_found (h : s.retrieve s.cfg.idxReadCid setCid = (true, t))
    (h' : t.retrieve s.cfg.idxReadCsd setCsd = (true, u)) :
    s.stage4 = u.setActive.releaseSeq.respond .ok .none := by
  simp only [stage4, h, h', if_true]

theorem initializeCard_of_idle (hx : s.xfer = none) : s.initializeCard = s.startSession.stage1 := by
  simp only [initializeCard, hx]

theorem initializeCard_of_transfer (hx : s.xfer ≠ none) :
    s.initializeCard = s.respond .seqError .none := by
  obtain ⟨x, hx⟩ := Option.ne_none_iff_exists'.1 hx
  simp only [initializeCard, hx]; rfl

end

/-- The retrieval of one register leaves it zero if it was zero and was not found (43 R175). -/
theorem retrieve_put (idx : CmdIndex) (put : Reg16 → State → State) (t : State)
    (hbus : ∀ v u, (put v u).bus = u.bus) (hzero : put Reg16.zero t = t)
    (hput : ∀ v b r, put v { t with bus := b, lastR1 := r } =
      { put v t with bus := b, lastR1 := r }) :
    ∃ (found : Bool) (reg : Reg16) (ev : List BusEvent) (r : Byte) (b : Bus),
      RetrieveEvents t.cfg idx found reg r ev ∧ b.trace = t.bus.trace ++ ev ∧
      t.retrieve idx put = (found, { put reg t with bus := b, lastR1 := r }) := by
  obtain ⟨found, reg, ev, r, r', b, b', hev, ht, h⟩ := retrieve_spec idx put t hbus
  refine ⟨found, reg, ev, r', b', hev, ht, ?_⟩
  cases found with
  | false => rw [h, hev.reg_eq_zero, hzero]; rfl
  | true => rw [h, hput]; rfl

/-! A bring-up in progress. -/

/-- `INITIALIZE` under way in `s`, the card selected: `st` is the status it would have if it ended now,
which says how the flags stand. -/
def bringUp (s : State) (st : Status) (cid csd : Reg16) (r : Byte) (b : Bus) : State :=
  { s with
    resetAck := decide (st ≠ .initFailReset)
    initAck := decide (st ≠ .initFailReset ∧ st ≠ .initFailNegotiation)
    blkLenOk := decide (st = .initFailRegister ∨ st = .ok)
    active := decide (st = .ok)
    cid := cid, csd := csd, cs := true, lastR1 := r, bus := b }

section

variable (s : State) (cid csd : Reg16) (r : Byte) (b : Bus)

/-- The power-up sequence clears the session and selects the card (43 R171). -/
theorem startSession_eq_bringUp :
    s.startSession = s.bringUp .initFailReset Reg16.zero Reg16.zero s.lastR1
      (((s.bus.log .desel).idle s.cfg.powerupIdleClocks).log .sel) := rfl

/-- Stage 1 (43 R172): its outcome is the status the bring-up would then end with. -/
theorem resetLoop_bringUp :
    ∃ (done : Bool) (ev : List BusEvent) (r' : Byte) (b' : Bus), ResetEvents s.cfg done r r' ev ∧
      b'.trace = b.trace ++ ev ∧
      resetLoop s.cfg.resetAttempts (s.bringUp .initFailReset cid csd r b) =
        s.bringUp (if done then .initFailNegotiation else .initFailReset) cid csd r' b' := by
  obtain ⟨ev, b', r', done, hev, ht, h⟩ :=
    resetLoop_spec s.cfg.resetAttempts (s.bringUp .initFailReset cid csd r b)
  exact ⟨done, ev, r', b', hev, ht, by rw [h]; cases done <;> rfl⟩

/-- Stage 2 (43 R173). -/
theorem negotiateLoop_bringUp :
    ∃ (done : Bool) (ev : List BusEvent) (r' : Byte) (b' : Bus),
      NegotiationEvents s.cfg done r r' ev ∧ b'.trace = b.trace ++ ev ∧
      negotiateLoop s.cfg.initAttempts (s.bringUp .initFailNegotiation cid csd r b) =
        s.bringUp (if done then .initFailBlocklen else .initFailNegotiation) cid csd r' b' := by
  obtain ⟨ev, b', r', done, hev, ht, h⟩ :=
    negotiateLoop_spec s.cfg.initAttempts (s.bringUp .initFailNegotiation cid csd r b)
  exact ⟨done, ev, r', b', hev, ht, by rw [h]; cases done <;> rfl⟩

/-- Stage 3 (43 R174). -/
theorem blockLenLoop_bringUp :
    ∃ (done : Bool) (ev : List BusEvent) (r' : Byte) (b' : Bus),
      BlockLenEvents s.cfg done r r' ev ∧ b'.trace = b.trace ++ ev ∧
      blockLenLoop s.cfg.blkLenAttempts (s.bringUp .initFailBlocklen cid csd r b) =
        s.bringUp (if done then .initFailRegister else .initFailBlocklen) cid csd r' b' := by
  obtain ⟨ev, b', r', done, hev, ht, h⟩ :=
    blockLenLoop_spec s.cfg.blkLenAttempts (s.bringUp .initFailBlocklen cid csd r b)
  exact ⟨done, ev, r', b', hev, ht, by rw [h]; cases done <;> rfl⟩

end

/-! How each stage goes on to the end. -/

/-- The bring-up of `s`, from the bus `b₀` on which stage 1 began, has ended in `t` (43 R176). -/
def BringUpEnds (s : State) (b₀ : Bus) (t : State) : Prop :=
  ∃ (st : Status) (cid csd : Reg16) (ev release : List BusEvent) (b : Bus) (r : Byte),
    InitEvents s.cfg st cid csd s.lastR1 r ev ∧ ReleaseEvents s.cfg.postIdleClocks release ∧
    b.trace = b₀.trace ++ ev ++ release ∧
    t = respond st .none { s.bringUp st cid csd r b with cs := false }

section

variable {s : State} {b₀ b : Bus} {r₁ r₂ r₃ : Byte} {e₁ e₂ e₃ : List BusEvent}

theorem bringUpEnds_of_release {st : Status} {cid csd : Reg16} {r : Byte} {ev : List BusEvent}
    (h : InitEvents s.cfg st cid csd s.lastR1 r ev) (hb : b.trace = b₀.trace ++ ev) :
    BringUpEnds s b₀ ((s.bringUp st cid csd r b).releaseSeq.respond st .none) := by
  obtain ⟨release, b', hrel, ht, heq⟩ := (s.bringUp st cid csd r b).releaseSeq_spec
  exact ⟨st, cid, csd, ev, release, b', r, h, hrel, by rw [ht, ← hb]; rfl, by rw [heq]; rfl⟩

theorem stage4_bringUpEnds (h₁ : ResetEvents s.cfg true s.lastR1 r₁ e₁)
    (h₂ : NegotiationEvents s.cfg true r₁ r₂ e₂) (h₃ : BlockLenEvents s.cfg true r₂ r₃ e₃)
    (hb : b.trace = b₀.trace ++ (e₁ ++ e₂ ++ e₃)) :
    BringUpEnds s b₀ (s.bringUp .initFailRegister Reg16.zero Reg16.zero r₃ b).stage4 := by
  obtain ⟨found, cid, e₄, r₄, b₄, h₄, ht₄, hcid⟩ := retrieve_put s.cfg.idxReadCid setCid
    (s.bringUp .initFailRegister Reg16.zero Reg16.zero r₃ b) (fun _ _ => rfl) rfl fun _ _ _ => rfl
  have ht₄ : b₄.trace = b₀.trace ++ (e₁ ++ e₂ ++ e₃ ++ e₄) := by
    rw [ht₄, ← List.append_assoc, ← hb]; rfl
  cases found with
  | false =>
    rw [stage4_of_cid_missing hcid]
    exact bringUpEnds_of_release (.of_cid_failed h₁ h₂ h₃ h₄) ht₄
  | true =>
    obtain ⟨found, csd, e₅, r₅, b₅, h₅, ht₅, hcsd⟩ := retrieve_put s.cfg.idxReadCsd setCsd
      (s.bringUp .initFailRegister cid Reg16.zero r₄ b₄) (fun _ _ => rfl) rfl fun _ _ _ => rfl
    have ht₅ : b₅.trace = b₀.trace ++ (e₁ ++ e₂ ++ e₃ ++ e₄ ++ e₅) := by
      rw [ht₅, ← List.append_assoc, ← ht₄]; rfl
    cases found with
    | false =>
      rw [stage4_of_csd_missing hcid hcsd]
      exact bringUpEnds_of_release (.of_csd_failed h₁ h₂ h₃ h₄ h₅) ht₅
    | true =>
      rw [stage4_of_found hcid hcsd]
      exact bringUpEnds_of_release (.of_ok h₁ h₂ h₃ h₄ h₅) ht₅

theorem stage3_bringUpEnds (h₁ : ResetEvents s.cfg true s.lastR1 r₁ e₁)
    (h₂ : NegotiationEvents s.cfg true r₁ r₂ e₂) (hb : b.trace = b₀.trace ++ (e₁ ++ e₂)) :
    BringUpEnds s b₀ (s.bringUp .initFailBlocklen Reg16.zero Reg16.zero r₂ b).stage3 := by
  obtain ⟨done, e₃, r₃, b₃, h₃, ht, heq⟩ := s.blockLenLoop_bringUp Reg16.zero Reg16.zero r₂ b
  rw [hb, List.append_assoc] at ht
  cases done with
  | false => exact stage3_of_failed heq rfl rfl ▸ bringUpEnds_of_release (.of_blockLen_failed h₁ h₂ h₃) ht
  | true => exact stage3_of_done heq rfl rfl ▸ stage4_bringUpEnds h₁ h₂ h₃ ht

theorem stage2_bringUpEnds (h₁ : ResetEvents s.cfg true s.lastR1 r₁ e₁)
    (hb : b.trace = b₀.trace ++ e₁) :
    BringUpEnds s b₀ (s.bringUp .initFailNegotiation Reg16.zero Reg16.zero r₁ b).stage2 := by
  obtain ⟨done, e₂, r₂, b₂, h₂, ht, heq⟩ := s.negotiateLoop_bringUp Reg16.zero Reg16.zero r₁ b
  rw [hb, List.append_assoc] at ht
  cases done with
  | false =>
    exact stage2_of_failed heq rfl rfl ▸ bringUpEnds_of_release (.of_negotiation_failed h₁ h₂) ht
  | true => exact stage2_of_done heq rfl rfl ▸ stage3_bringUpEnds h₁ h₂ ht

theorem stage1_bringUpEnds :
    BringUpEnds s b (s.bringUp .initFailReset Reg16.zero Reg16.zero s.lastR1 b).stage1 := by
  obtain ⟨done, e₁, r₁, b₁, h₁, ht, heq⟩ := s.resetLoop_bringUp Reg16.zero Reg16.zero s.lastR1 b
  cases done with
  | false => exact stage1_of_failed heq rfl rfl ▸ bringUpEnds_of_release (.of_reset_failed h₁) ht
  | true => exact stage1_of_done heq rfl rfl ▸ stage2_bringUpEnds h₁ ht

end

end State

/-- Settles O36: a transfer refuses it; without one the power-up sequence leads to stage 1, and each
stage to the next or to the release. -/
theorem initializeRunsTheStagesInOrder : Obligations.InitializeRunsTheStagesInOrder := by
  refine ⟨fun s hx => congrArg Host.Outcome.next (State.initializeCard_of_transfer hx),
    fun s hx => ?_⟩
  obtain ⟨e₀, h₀, ht₀⟩ := Bus.idle_spec s.cfg.powerupIdleClocks (s.bus.log .desel)
  obtain ⟨st, cid, csd, ev, release, b, r, hev, hrel, ht, hend⟩ := State.stage1_bringUpEnds (s := s)
    (b := ((s.bus.log .desel).idle s.cfg.powerupIdleClocks).log .sel)
  have heq := State.initializeCard_of_idle hx
  rw [State.startSession_eq_bringUp, hend] at heq
  exact ⟨st, cid, csd, e₀, ev, release, b, r, h₀, hev, hrel, by rw [ht]; simp [ht₀],
    congrArg Host.Outcome.next heq⟩

/-! The bound (43 R179). -/

theorem CommandEvents.delays_eq_zero {idx : CmdIndex} {arg : Arg} {r : Byte} {ev : List BusEvent}
    (h : CommandEvents idx arg r ev) : delays ev = 0 := by
  obtain ⟨got, idles, -, ⟨-, -, rfl⟩ | ⟨-, -, rfl⟩⟩ := h <;> simp

theorem CommandEvents.exchanges_le {idx : CmdIndex} {arg : Arg} {r : Byte} {ev : List BusEvent}
    (h : CommandEvents idx arg r ev) : exchanges ev ≤ 23 :=
  let ⟨_, hle, _⟩ := h.counts
  hle

/-- One attempt of stage 2 is at most three commands (43 R173). -/
theorem NegotiateEvents.counts {cfg : Cfg} {r : Byte} {ev : List BusEvent}
    (h : NegotiateEvents cfg r ev) : exchanges ev ≤ 69 ∧ delays ev = 0 := by
  obtain ⟨_, _, e₁, e₂, h₁, h₂, h⟩ := h
  have hx₁ := h₁.exchanges_le
  have hx₂ := h₂.exchanges_le
  obtain ⟨-, e₃, h₃, rfl⟩ | ⟨-, -, rfl⟩ := h
  · have hx₃ := h₃.exchanges_le
    simp only [exchanges_append, delays_append, h₁.delays_eq_zero, h₂.delays_eq_zero,
      h₃.delays_eq_zero, and_true]
    omega
  · simp only [exchanges_append, delays_append, h₁.delays_eq_zero, h₂.delays_eq_zero, and_true]
    omega

/-- A stage of `n` attempts, each of at most `k` exchanges and no delay, makes at most `k * n`
exchanges and `n` delays (43 R172 to R174). -/
theorem StageEvents.counts {one : Byte → List BusEvent → Prop} {good before last : Byte}
    {ms n k : Nat} {done : Bool} {ev : List BusEvent}
    (hone : ∀ r e, one r e → exchanges e ≤ k ∧ delays e = 0)
    (h : StageEvents one good ms n done before last ev) :
    exchanges ev ≤ k * n ∧ delays ev ≤ n := by
  obtain ⟨failed, hf, h⟩ := h
  obtain ⟨hfx, hfd⟩ : exchanges (failed.flatMap fun a => a.2 ++ [.dly ms]) ≤ k * failed.length ∧
      delays (failed.flatMap fun a => a.2 ++ [.dly ms]) = failed.length := by
    clear h
    induction failed with
    | nil => simp
    | cons a failed ih =>
      obtain ⟨hx, hd⟩ := hone _ _ (hf a List.mem_cons_self).2
      obtain ⟨ihx, ihd⟩ := ih fun b hb => hf b (List.mem_cons_of_mem a hb)
      simp only [List.flatMap_cons, exchanges_append, delays_append, exchanges_dly, delays_dly,
        exchanges_nil, delays_nil, hd, ihd, List.length_cons, Nat.mul_succ]
      omega
  obtain ⟨-, hl, -, e, he, rfl⟩ | ⟨-, rfl, -, rfl⟩ := h
  · obtain ⟨hx, hd⟩ := hone _ _ he
    have hmul : k * failed.length + k ≤ k * n := Nat.mul_le_mul_left k hl
    simp only [exchanges_append, delays_append]
    omega
  · exact ⟨hfx, hfd.le⟩

/-- The retrieval of one register is a command, a token wait, and if the token came 16 bytes and
another command (43 R175). -/
theorem RetrieveEvents.counts {cfg : Cfg} {idx : CmdIndex} {found : Bool} {reg : Reg16} {last : Byte}
    {ev : List BusEvent} (h : RetrieveEvents cfg idx found reg last ev) :
    exchanges ev ≤ 23 + cfg.tokenAttempts + 16 + 23 ∧ delays ev ≤ cfg.tokenAttempts := by
  obtain ⟨_, e₁, e₂, h₁, h₂, h⟩ := h
  have hx₁ := h₁.exchanges_le
  obtain ⟨hx₂, hd₂⟩ := h₂.counts
  obtain ⟨-, -, -, rfl⟩ | ⟨-, e₃, h₃, rfl⟩ := h
  · simp only [exchanges_append, delays_append, h₁.delays_eq_zero]
    omega
  · have hx₃ := h₃.exchanges_le
    simp only [exchanges_append, delays_append, h₁.delays_eq_zero, h₃.delays_eq_zero, exchanges_map,
      delays_map, Vector.length_toList]
    omega

/-- The four stages together (43 R179). -/
theorem InitEvents.counts {cfg : Cfg} {st : Status} {cid csd : Reg16} {before last : Byte}
    {ev : List BusEvent} (h : InitEvents cfg st cid csd before last ev) :
    exchanges ev ≤ 23 * cfg.resetAttempts + 69 * cfg.initAttempts + 23 * cfg.blkLenAttempts +
      2 * (23 + cfg.tokenAttempts + 16 + 23) ∧
    delays ev ≤ cfg.resetAttempts + cfg.initAttempts + cfg.blkLenAttempts +
      2 * cfg.tokenAttempts := by
  obtain ⟨e₁, e₂, e₃, e₄, e₅, r₁, r₂, r₃, r₄, rfl, h₁, h₂, h₃, h₄⟩ := h
  have hcmd {idx : CmdIndex} {arg : Arg} (r : Byte) (e : List BusEvent) :
      CommandEvents idx arg r e → exchanges e ≤ 23 ∧ delays e = 0 :=
    fun h => ⟨h.exchanges_le, h.delays_eq_zero⟩
  have hx₁ := h₁.counts hcmd
  have hx₂ : exchanges e₂ ≤ 69 * cfg.initAttempts ∧ delays e₂ ≤ cfg.initAttempts := by
    split at h₂
    · obtain ⟨-, rfl⟩ := h₂
      simp
    · exact h₂.counts fun _ _ h => h.counts
  have hx₃ : exchanges e₃ ≤ 23 * cfg.blkLenAttempts ∧ delays e₃ ≤ cfg.blkLenAttempts := by
    split at h₃
    · obtain ⟨-, rfl⟩ := h₃
      simp
    · exact h₃.counts hcmd
  simp only [exchanges_append, delays_append]
  obtain ⟨-, h₄, h₅⟩ | ⟨-, h₄, h₅⟩ | ⟨-, h₄, rfl, -⟩ | ⟨-, -, rfl, rfl, -⟩ := h₄
  · have := h₄.counts
    have := h₅.counts
    omega
  · have := h₄.counts
    have := h₅.counts
    omega
  · have := h₄.counts
    simp only [exchanges_nil, delays_nil]
    omega
  · simp only [exchanges_nil, delays_nil]
    omega

/-- Settles O39: the events of O36 are counted part by part. -/
theorem initializeIsBounded : Obligations.InitializeIsBounded := by
  intro s t h
  obtain ⟨hrefused, hruns⟩ := initializeRunsTheStagesInOrder
  by_cases hx : s.xfer = none
  · obtain ⟨st, cid, csd, e₀, ev, release, b, r, h₀, hev, hrel, ht, hexec⟩ := hruns s hx
    rw [hexec] at h
    cases h
    obtain ⟨hx₀, hd₀⟩ := h₀.counts
    obtain ⟨hx₁, hd₁⟩ := hev.counts
    obtain ⟨hx₂, hd₂⟩ := hrel.counts
    refine ⟨[.desel] ++ e₀ ++ [.sel] ++ ev ++ release, ?_, ?_⟩
    · rw [State.respond_bus, ht]
      simp only [List.append_assoc]
    · simp only [exchanges_append, delays_append, exchanges_desel, exchanges_sel, delays_desel,
        delays_sel, exchanges_nil, delays_nil]
      omega
  · rw [hrefused s hx] at h
    cases h
    exact ⟨[], by simp, by simp, by simp⟩

end Sys2Proof.Machine
end

section
/-! PROOFS. `INITIALIZE` with two scripted cards (20_memory R59): one that never answers (43 R178) and
one that answers every command at once (43 R172 to R175). -/

namespace Sys2Proof.Machine

namespace Bus

/-! An exhausted script. -/

theorem sendAll_exhausted (os : List Byte) (t : List BusEvent) :
    sendAll os ⟨t, .script []⟩ = ⟨t ++ os.map (BusEvent.xchg · 0xFF), .script []⟩ := by
  induction os generalizing t with
  | nil => simp
  | cons o os ih => rw [sendAll_cons, send_script_nil, ih]; simp

theorem poll_exhausted (n : Nat) (t : List BusEvent) :
    poll n ⟨t, .script []⟩ = (idleByte, ⟨t ++ List.replicate n (.xchg 0xFF 0xFF), .script []⟩) := by
  induction n generalizing t with
  | zero => simp [poll]
  | succ n ih =>
    have hpoll : poll (n + 1) ⟨t, .script []⟩ = poll n (send idleByte ⟨t, .script []⟩) := rfl
    rw [hpoll, send_script_nil, ih]
    simp [List.replicate_succ]

/-- `SendCommand` without an answer: all polls are made (41 R122 to R124). -/
theorem command_exhausted (idx : CmdIndex) (arg : Arg) (t : List BusEvent) :
    command idx arg ⟨t, .script []⟩ =
      (idleByte, ⟨t ++ ((idleByte :: frame idx arg).map (BusEvent.xchg · 0xFF) ++
        List.replicate respPollMax (.xchg 0xFF 0xFF)), .script []⟩) := by
  rw [command, ← sendAll_cons, sendAll_exhausted, poll_exhausted, List.append_assoc]

/-! A card that answers at once. -/

section

variable {b : Bus} {rest : List Byte}

theorem idle_prompt {n : Nat} {i : Byte} (h : b.card = .script (List.replicate n i ++ rest)) :
    (b.idle n).card = .script rest := by
  have hidle := idle_script (List.replicate n i) rest b.trace
  rw [List.length_replicate, ← h] at hidle
  exact congrArg Bus.card hidle

/-- `SendCommand` answered at the first poll (41 R122 to R124). -/
theorem command_prompt (idx : CmdIndex) (arg : Arg) {r : Byte} (hr : r ≠ idleByte)
    (h : b.card = .script (promptReply r ++ rest)) :
    ∃ b', b'.card = .script rest ∧ b.command idx arg = (r, b') := by
  have hcommand := command_script idx arg (List.replicate 7 0xFF) rest r b.trace rfl hr
  rw [List.append_cons, ← promptReply, ← h] at hcommand
  exact ⟨_, rfl, hcommand⟩

/-- `WaitToken` when the first byte is the token (44_transfer R193). -/
theorem waitToken_prompt {ms n : Nat} (hn : 0 < n) (h : b.card = .script (tokenStart :: rest)) :
    ∃ b', b'.card = .script rest ∧ b.waitToken ms n = (true, b') := by
  obtain ⟨n, rfl⟩ := Nat.exists_eq_add_one.2 hn
  have hx : (b.xchg idleByte).1 = tokenStart := by simp [xchg, Card.answer, h]
  exact ⟨b.send idleByte, by simp [send, xchg, Card.answer, h], by simp [waitToken, hx]⟩

theorem recvReg_prompt {n : Nat} {reg : Vector Byte n}
    (h : b.card = .script (reg.toList ++ rest)) :
    ∃ b', b'.card = .script rest ∧ b.recvReg n = (reg, b') := by
  have hreg := recvReg_script reg rest b.trace
  rw [← h] at hreg
  exact ⟨_, rfl, hreg⟩

end

end Bus

/-- The events of a reset attempt without an answer: the padded frame, 16 polls, the delay (43 R172). -/
def silentResetAttempt (cfg : Cfg) : List BusEvent :=
  ([0xFF, 0x40, 0, 0, 0, 0, 0x95] : List Byte).map (BusEvent.xchg · 0xFF) ++
    List.replicate 16 (.xchg 0xFF 0xFF) ++ [.dly cfg.stageDelayMs]

/-- The padded reset frame is the one the rules print (41 R126). -/
theorem silentResetAttempt_eq (cfg : Cfg) :
    silentResetAttempt cfg = (idleByte :: frame idxReset 0).map (BusEvent.xchg · 0xFF) ++
      List.replicate respPollMax (.xchg 0xFF 0xFF) ++ [.dly cfg.stageDelayMs] := by
  have hframe : frame idxReset 0 = [0x40, 0, 0, 0, 0, 0x95] := printedFrames.1
  rw [hframe]; rfl

namespace State

/-! The micro-sequences by their bus side. -/

section

variable {s u : State} {b : Bus} {idx : CmdIndex} {arg : Arg} {r : Byte}

theorem sendCommand_of_bus (h : s.bus.command idx arg = (r, b)) :
    s.sendCommand idx arg = (r, { s with bus := b, lastR1 := r }) := by
  simp only [sendCommand, h]; rfl

theorem command_of_bus (h : s.bus.command idx arg = (r, b)) :
    s.command idx arg = { s with bus := b, lastR1 := r } := by
  rw [← sendCommand_snd, sendCommand_of_bus h]

theorem waitToken_of_bus {found : Bool}
    (h : s.bus.waitToken s.cfg.tokenDelayMs s.cfg.tokenAttempts = (found, b)) :
    s.waitToken = (found, { s with bus := b }) := by
  simp only [waitToken, h]; rfl

/-- A register whose token came (43 R175). -/
theorem retrieve_of_found {reg : Reg16} {put : Reg16 → State → State}
    (hw : (s.command idx 0).waitToken = (true, u)) (hr : Bus.recvReg 16 u.bus = (reg, b)) :
    s.retrieve idx put = (true, (put reg { u with bus := b }).command s.cfg.idxEndRead 0) := by
  simp only [retrieve, hw, hr, if_true]; rfl

end

/-! The loops after the answer to one attempt. -/

section

variable {n : Nat} {s t : State} {r : Byte}

theorem resetLoop_of_answered (hn : 0 < n) (h : s.sendCommand idxReset 0 = (r1Idle, t)) :
    resetLoop n s = t.setResetAck := by
  obtain ⟨n, rfl⟩ := Nat.exists_eq_add_one.2 hn
  simp only [resetLoop, h, if_true]

theorem resetLoop_of_failed (h : s.sendCommand idxReset 0 = (r, t)) (hr : r ≠ r1Idle) :
    resetLoop (n + 1) s = resetLoop n t.stageDelay := by
  simp only [resetLoop, h, if_neg hr]

theorem negotiateLoop_of_answered (hn : 0 < n) (h : s.negotiateOnce = (r1Ready, t)) :
    negotiateLoop n s = t.setInitAck := by
  obtain ⟨n, rfl⟩ := Nat.exists_eq_add_one.2 hn
  simp only [negotiateLoop, h, if_true]

theorem blockLenLoop_of_answered (hn : 0 < n)
    (h : s.sendCommand s.cfg.idxSetBlocklen 512 = (r1Ready, t)) :
    blockLenLoop n s = t.setBlkLenOk := by
  obtain ⟨n, rfl⟩ := Nat.exists_eq_add_one.2 hn
  simp only [blockLenLoop, h, if_true]

end

/-! A card that never answers. -/

/-- One reset attempt without an answer (43 R172). -/
theorem resetAttempt_silent (s : State) (cid csd : Reg16) (r : Byte) (t : List BusEvent) :
    ∃ u, (s.bringUp .initFailReset cid csd r ⟨t, .script []⟩).sendCommand idxReset 0 =
        (idleByte, u) ∧
      u.stageDelay =
        s.bringUp .initFailReset cid csd idleByte ⟨t ++ silentResetAttempt s.cfg, .script []⟩ := by
  refine ⟨_, sendCommand_of_bus (Bus.command_exhausted idxReset 0 t), ?_⟩
  rw [silentResetAttempt_eq]
  exact congrArg (fun t => s.bringUp .initFailReset cid csd idleByte ⟨t, .script []⟩)
    (List.append_assoc t _ _)

/-- Stage 1 without an answer makes all its attempts and fails (43 R172, R178). -/
theorem resetLoop_silent (s : State) (cid csd : Reg16) (r : Byte) (t : List BusEvent) (n : Nat) :
    ∃ r', resetLoop n (s.bringUp .initFailReset cid csd r ⟨t, .script []⟩) =
      s.bringUp .initFailReset cid csd r'
        ⟨t ++ (List.replicate n (silentResetAttempt s.cfg)).flatten, .script []⟩ := by
  induction n generalizing r t with
  | zero => exact ⟨r, by simp [resetLoop]⟩
  | succ n ih =>
    obtain ⟨u, hsend, hdelay⟩ := s.resetAttempt_silent cid csd r t
    obtain ⟨r', hloop⟩ := ih idleByte (t ++ silentResetAttempt s.cfg)
    exact ⟨r', by rw [resetLoop_of_failed hsend (by decide), hdelay, hloop, List.append_assoc,
      List.replicate_succ, List.flatten_cons]⟩

end State

/-- Settles O37: with a silent card stage 1 fails, and the release follows at once. -/
theorem silentCardGetsOnlyResetFrames : Obligations.SilentCardGetsOnlyResetFrames := by
  intro s hx hcard
  have hbus : s.bus.log .desel = ⟨s.bus.trace ++ [.desel], .script []⟩ := by rw [Bus.log, hcard]
  obtain ⟨r, hloop⟩ := s.resetLoop_silent Reg16.zero Reg16.zero s.lastR1
    (s.bus.trace ++ [.desel] ++ List.replicate s.cfg.powerupIdleClocks (.xchg idleByte 0xFF) ++
      [.sel]) s.cfg.resetAttempts
  have heq := State.initializeCard_of_idle hx
  rw [State.startSession_eq_bringUp, hbus, Bus.idle_exhausted] at heq
  rw [Bus.log, State.stage1_of_failed hloop rfl rfl] at heq
  refine ⟨_, congrArg Host.Outcome.next heq, rfl, rfl, ?_⟩
  rw [State.respond_bus, State.releaseSeq_bus]
  simp [State.bringUp, Bus.idle_exhausted, silentResetAttempt]

/-! A card that answers at once. -/

/-- What a card that answers at once sends during the retrieval of one register (43 R175). -/
def promptRegister (reg : Reg16) : List Byte :=
  promptReply 0x00 ++ (tokenStart :: (reg.toList ++ promptReply 0x00))

namespace State

/-- One attempt of stage 2: the response 0x00 is no illegal command (43 R173). -/
theorem negotiateOnce_prompt {s : State} {rest : List Byte}
    (h : s.bus.card = .script (promptReply 0x01 ++ (promptReply 0x00 ++ rest))) :
    ∃ b, b.card = .script rest ∧
      s.negotiateOnce = (r1Ready, { s with bus := b, lastR1 := r1Ready }) := by
  obtain ⟨b₁, hcard₁, h₁⟩ := Bus.command_prompt s.cfg.idxAppPrefix 0 (by decide) h
  obtain ⟨b₂, hcard₂, h₂⟩ := Bus.command_prompt s.cfg.idxSdcInit s.cfg.argSdcInit (by decide) hcard₁
  have hsdc := sendCommand_of_bus (s := { s with bus := b₁, lastR1 := 0x01 }) h₂
  have hlegal : illegalCommand s.cfg 0x00 = false := by simp [illegalCommand]
  exact ⟨b₂, hcard₂, by simp only [negotiateOnce, command_of_bus h₁, hsdc, hlegal]; rfl⟩

/-- The retrieval of one register (43 R175). -/
theorem retrieve_prompt {s : State} {reg : Reg16} {rest : List Byte} (idx : CmdIndex)
    (put : Reg16 → State → State) (hbus : ∀ v t, (put v t).bus = t.bus)
    (hn : 0 < s.cfg.tokenAttempts) (h : s.bus.card = .script (promptRegister reg ++ rest)) :
    ∃ b b' : Bus, b'.card = .script rest ∧ s.retrieve idx put =
      (true, { put reg { s with bus := b, lastR1 := 0x00 } with bus := b', lastR1 := 0x00 }) := by
  rw [promptRegister, List.append_assoc, List.cons_append, List.append_assoc] at h
  obtain ⟨b₁, hcard₁, h₁⟩ := Bus.command_prompt idx 0 (by decide) h
  obtain ⟨b₂, hcard₂, h₂⟩ := Bus.waitToken_prompt (ms := s.cfg.tokenDelayMs) hn hcard₁
  obtain ⟨b₃, hcard₃, h₃⟩ := Bus.recvReg_prompt hcard₂
  obtain ⟨b₄, hcard₄, h₄⟩ := Bus.command_prompt s.cfg.idxEndRead 0 (by decide) hcard₃
  have hw : (s.command idx 0).waitToken = (true, { s with bus := b₂, lastR1 := 0x00 }) := by
    rw [command_of_bus h₁]
    exact waitToken_of_bus h₂
  refine ⟨b₃, b₄, hcard₄, (retrieve_of_found hw h₃).trans (congrArg (Prod.mk true) ?_)⟩
  exact command_of_bus (by rw [hbus]; exact h₄)

/-- Stage 4 finds both registers (43 R175). -/
theorem stage4_prompt {s : State} {cid csd : Reg16} {r : Byte} {b : Bus} {rest : List Byte}
    (hn : 0 < s.cfg.tokenAttempts)
    (h : b.card = .script (promptRegister cid ++ (promptRegister csd ++ rest))) :
    ∃ b', (s.bringUp .initFailRegister Reg16.zero Reg16.zero r b).stage4 =
      (s.bringUp .ok cid csd 0x00 b').releaseSeq.respond .ok .none := by
  obtain ⟨_, b₁, hcard₁, hcid⟩ := retrieve_prompt s.cfg.idxReadCid setCid
    (s := s.bringUp .initFailRegister Reg16.zero Reg16.zero r b) (fun _ _ => rfl) hn h
  obtain ⟨_, b₂, -, hcsd⟩ := retrieve_prompt s.cfg.idxReadCsd setCsd
    (s := s.bringUp .initFailRegister cid Reg16.zero 0x00 b₁) (fun _ _ => rfl) hn hcard₁
  exact ⟨b₂, stage4_of_found hcid hcsd⟩

end State

/-- Settles O38: each stage ends at its first attempt, and each register is received. -/
theorem promptCardBecomesActive : Obligations.PromptCardBecomesActive := by
  intro s cid csd hx hreset hinit hblk htoken hcard
  have hscript : (s.bus.log .desel).card = .script (List.replicate s.cfg.powerupIdleClocks 0xFF ++
      (promptReply 0x01 ++ (promptReply 0x01 ++ (promptReply 0x00 ++ (promptReply 0x00 ++
        (promptRegister cid ++ (promptRegister csd ++ []))))))) := by
    rw [Bus.log_card, hcard]
    simp [promptRegister]
  have hcard₀ := Bus.idle_prompt hscript
  generalize hb₀ : ((s.bus.log .desel).idle s.cfg.powerupIdleClocks) = b₀ at hcard₀
  obtain ⟨b₁, hcard₁, h₁⟩ := Bus.command_prompt (b := b₀.log .sel) idxReset 0 (by decide) hcard₀
  obtain ⟨b₂, hcard₂, h₂⟩ := State.negotiateOnce_prompt
    (s := s.bringUp .initFailNegotiation Reg16.zero Reg16.zero r1Idle b₁) hcard₁
  obtain ⟨b₃, hcard₃, h₃⟩ := Bus.command_prompt s.cfg.idxSetBlocklen 512 (by decide) hcard₂
  obtain ⟨b₄, h₄⟩ := State.stage4_prompt (s := s) (r := r1Ready) htoken hcard₃
  have hloop₁ := State.resetLoop_of_answered hreset (State.sendCommand_of_bus
    (s := s.bringUp .initFailReset Reg16.zero Reg16.zero s.lastR1 (b₀.log .sel)) h₁)
  have hloop₂ := State.negotiateLoop_of_answered hinit h₂
  have hloop₃ := State.blockLenLoop_of_answered hblk (State.sendCommand_of_bus
    (s := s.bringUp .initFailBlocklen Reg16.zero Reg16.zero r1Ready b₂) h₃)
  have heq : s.initializeCard = (s.bringUp .ok cid csd 0x00 b₄).releaseSeq.respond .ok .none := by
    rw [State.initializeCard_of_idle hx, State.startSession_eq_bringUp, hb₀,
      State.stage1_of_done hloop₁ rfl rfl]
    exact (State.stage2_of_done hloop₂ rfl rfl).trans
      ((State.stage3_of_done hloop₃ rfl rfl).trans h₄)
  exact ⟨_, congrArg Host.Outcome.next heq, rfl, rfl, rfl, rfl, rfl, rfl⟩

end Sys2Proof.Machine
end

section
/-! PROOFS. The low-level operations of the Transfer Engine (44 R196 to R207), each by the events it
appends and the elements of `S` it writes. -/

namespace Sys2Proof.Machine

/-- How `BEGIN_TRANSFER` ends once the response `r` to its command is in: its status, and the events
after the command (44 R196, R215). -/
def BeginEnds (cfg : Cfg) (dir : Dir) (gran : Gran) (r : Byte) (st : Status)
    (ev : List BusEvent) : Prop :=
  (r = 0xFF ∧ st = .cmdNoResponse ∧ ReleaseEvents cfg.postIdleClocks ev) ∨
  (r ≠ 0xFF ∧ r ≠ 0x00 ∧ st = .cmdRejected ∧ ReleaseEvents cfg.postIdleClocks ev) ∨
  (r = 0x00 ∧ gran = .multi ∧ st = .ok ∧ ev = []) ∨
  (r = 0x00 ∧ gran = .single ∧ dir = .write ∧ st = .ok ∧ ∃ g, ev = [.xchg 0xFE g]) ∨
  (r = 0x00 ∧ gran = .single ∧ dir = .read ∧ st = .ok ∧
    TokenEvents cfg.tokenDelayMs cfg.tokenAttempts true ev) ∨
  (r = 0x00 ∧ gran = .single ∧ dir = .read ∧ st = .tokenTimeout ∧
    ∃ e₁ e₂, TokenEvents cfg.tokenDelayMs cfg.tokenAttempts false e₁ ∧
      ReleaseEvents cfg.postIdleClocks e₂ ∧ ev = e₁ ++ e₂)

namespace State

/-! `BEGIN_TRANSFER` (44 R196). -/

theorem beginTransfer_of_inactive {s : State} (dir : Dir) (gran : Gran) (addr : Arg)
    (h : s.active = false) : s.beginTransfer dir gran addr = (.notActive, s) := if_pos h

theorem beginTransfer_of_transfer {s : State} (dir : Dir) (gran : Gran) (addr : Arg)
    (ha : s.active = true) (hx : s.xfer ≠ none) :
    s.beginTransfer dir gran addr = (.seqError, s) := by
  simp [beginTransfer, ha, hx]

/-- The command that opens a transfer, after `SelectSeq`, with its events (44 R191, R196). -/
theorem selectCommand_spec (s : State) (idx : CmdIndex) (arg : Arg) :
    ∃ (r : Byte) (e₁ e₂ : List BusEvent) (b : Bus),
      SelectEvents s.cfg.preSelectIdleClocks e₁ ∧ CommandEvents idx arg r e₂ ∧
      b.trace = s.bus.trace ++ e₁ ++ e₂ ∧
      s.selectSeq.command idx arg = { s with bus := b, lastR1 := r, cs := true } := by
  obtain ⟨e₁, b₁, h₁, ht₁, heq₁⟩ := s.selectSeq_spec
  obtain ⟨r, e₂, b, h₂, ht₂, heq₂⟩ := s.selectSeq.command_spec idx arg
  refine ⟨r, e₁, e₂, b, h₁, h₂, ?_, by rw [heq₂, heq₁]⟩
  rw [ht₂, heq₁, ← ht₁]

/-- The state a `BEGIN_TRANSFER` admitted in `s` leaves when it ends with `st`. -/
def afterBegin (s : State) (dir : Dir) (gran : Gran) (r : Byte) (st : Status) (b : Bus) : State :=
  { s with
    bus := b, lastR1 := r, cs := decide (st = .ok)
    xfer := if st = .ok then some { dir, gran, subOpen := false } else none }

/-- A `BEGIN_TRANSFER` that fails leaves no transfer and a released card. -/
theorem afterBegin_of_failed {s : State} (hx : s.xfer = none) (dir : Dir) (gran : Gran) (r : Byte)
    {st : Status} (hst : st ≠ .ok) (b : Bus) :
    s.afterBegin dir gran r st b = { s with bus := b, lastR1 := r, cs := false } := by
  rw [afterBegin, decide_eq_false hst, if_neg hst, ← hx]

/-- `ReleaseSeq` after a command that opens no transfer. -/
theorem releaseSeq_afterCommand {s : State} (hx : s.xfer = none) (dir : Dir) (gran : Gran)
    (r : Byte) {st : Status} (hst : st ≠ .ok) (b : Bus) :
    ∃ (ev : List BusEvent) (b' : Bus), ReleaseEvents s.cfg.postIdleClocks ev ∧
      b'.trace = b.trace ++ ev ∧
      releaseSeq { s with bus := b, lastR1 := r, cs := true } = s.afterBegin dir gran r st b' := by
  obtain ⟨ev, b', hev, ht, heq⟩ := releaseSeq_spec { s with bus := b, lastR1 := r, cs := true }
  exact ⟨ev, b', hev, ht, by rw [heq, afterBegin_of_failed hx dir gran r hst b']⟩

/-- `BEGIN_TRANSFER` on an active session with no transfer: the selection, the command, and how it
goes on by the response (44 R196, R197). -/
theorem beginTransfer_spec {s : State} (dir : Dir) (gran : Gran) (addr : Arg)
    (ha : s.active = true) (hx : s.xfer = none) :
    ∃ (r : Byte) (e₁ e₂ e₃ : List BusEvent) (b : Bus) (st : Status),
      SelectEvents s.cfg.preSelectIdleClocks e₁ ∧
      CommandEvents (beginIndex s.cfg dir gran) addr r e₂ ∧
      b.trace = s.bus.trace ++ e₁ ++ e₂ ++ e₃ ∧
      s.beginTransfer dir gran addr = (st, s.afterBegin dir gran r st b) ∧
      BeginEnds s.cfg dir gran r st e₃ := by
  obtain ⟨r, e₁, e₂, b, h₁, h₂, ht, hp⟩ := s.selectCommand_spec (beginIndex s.cfg dir gran) addr
  obtain ⟨h, -⟩ | ⟨-, h, -⟩ | ⟨-, -, h⟩ := s.beginTransfer_cases dir gran addr
  · simp [ha] at h
  · exact absurd hx h
  rw [hp] at h
  have hrelease {st : Status} (hst : st ≠ .ok) :=
    releaseSeq_afterCommand hx dir gran r hst
  obtain ⟨found, e₃, b₃, h₃, ht₃, hw⟩ :=
    waitToken_spec { s with bus := b, lastR1 := r, cs := true }
  rw [hw] at h
  obtain ⟨hr, h⟩ | ⟨hr, hr', h⟩ | ⟨hr, rfl, h⟩ | ⟨hr, rfl, rfl, h⟩ | ⟨hr, rfl, rfl, rfl, h⟩ |
    ⟨hr, rfl, rfl, rfl, h⟩ := h
  · obtain ⟨e₄, b₄, h₄, ht₄, heq⟩ := hrelease (st := .cmdNoResponse) (by decide) b
    exact ⟨r, e₁, e₂, e₄, b₄, .cmdNoResponse, h₁, h₂, by rw [ht₄, ht], by rw [h, heq],
      .inl ⟨hr, rfl, h₄⟩⟩
  · obtain ⟨e₄, b₄, h₄, ht₄, heq⟩ := hrelease (st := .cmdRejected) (by decide) b
    exact ⟨r, e₁, e₂, e₄, b₄, .cmdRejected, h₁, h₂, by rw [ht₄, ht], by rw [h, heq],
      .inr (.inl ⟨hr, hr', rfl, h₄⟩)⟩
  · exact ⟨r, e₁, e₂, [], b, .ok, h₁, h₂, by rw [ht, List.append_nil], h,
      .inr (.inr (.inl ⟨hr, rfl, rfl, rfl⟩))⟩
  · exact ⟨r, e₁, e₂, [.xchg tokenStart (b.xchg tokenStart).1], b.send tokenStart, .ok, h₁, h₂,
      by rw [Bus.send_trace, ht], h, .inr (.inr (.inr (.inl ⟨hr, rfl, rfl, rfl, _, rfl⟩)))⟩
  · exact ⟨r, e₁, e₂, e₃, b₃, .ok, h₁, h₂, by rw [ht₃, ← ht], h,
      .inr (.inr (.inr (.inr (.inl ⟨hr, rfl, rfl, rfl, h₃⟩))))⟩
  · obtain ⟨e₄, b₄, h₄, ht₄, heq⟩ := hrelease (st := .tokenTimeout) (by decide) b₃
    exact ⟨r, e₁, e₂, e₃ ++ e₄, b₄, .tokenTimeout, h₁, h₂,
      by rw [ht₄, ht₃, ← ht, List.append_assoc], by rw [h, heq],
      .inr (.inr (.inr (.inr (.inr ⟨hr, rfl, rfl, rfl, e₃, e₄, h₃, h₄, rfl⟩))))⟩

end State

/-- `BEGIN_TRANSFER` answers the status with which it ends, without a value. -/
theorem exec_beginTransfer_of_eq {s t : State} {dir : Dir} {gran : Gran} {addr : Arg} {st : Status}
    (h : s.beginTransfer dir gran addr = (st, t)) :
    exec (.beginTransfer dir gran addr) s = .next (t.respond st .none) := by
  simp only [exec, execBeginTransfer, h]

/-- Settles O41: the two refusals, and an admitted one by how it ends. -/
theorem beginTransferOutcomes : Obligations.BeginTransferOutcomes := by
  refine ⟨fun dir gran addr s => ⟨fun ha => ?_, fun ha hx => ?_⟩, fun dir gran addr s ha hx => ?_⟩
  · exact exec_beginTransfer_of_eq (State.beginTransfer_of_inactive dir gran addr ha)
  · exact exec_beginTransfer_of_eq (State.beginTransfer_of_transfer dir gran addr ha hx)
  · obtain ⟨r, e₁, e₂, e₃, b, st, h₁, h₂, ht, heq, hends⟩ :=
      State.beginTransfer_spec dir gran addr ha hx
    exact ⟨r, e₁, e₂, e₃, b, st, h₁, h₂, ht, exec_beginTransfer_of_eq heq, hends⟩

/-! Sub-blocks (44 R198 to R204). -/

theorem exec_startSubBlock_of_eq {s t : State} {st : Status} (h : s.startSubBlock = (st, t)) :
    exec .startSubBlock s = .next (t.respond st .none) := by
  simp only [exec, execStartSubBlock, h]

theorem exec_stopSubBlock_of_eq {s t : State} {crc : Half} {st : Status}
    (h : s.stopSubBlock crc = (st, t)) :
    exec (.stopSubBlock crc) s = .next (t.respond st .none) := by
  simp only [exec, execStopSubBlock, h]

/-- Settles O42: the busy wait, then the start token. -/
theorem startSubBlockOfWrite : Obligations.StartSubBlockOfWrite := by
  intro s hx
  obtain ⟨e, b, he, ht, heq⟩ := s.waitBusy_spec
  have hstart := s.startSubBlock_write hx
  rw [heq] at hstart
  exact ⟨e, _, b.send tokenMultiStart, he,
    (Bus.send_trace tokenMultiStart b).trans (congrArg (· ++ _) ht),
    exec_startSubBlock_of_eq hstart⟩

/-- Settles O43: the token wait, then `Abort` if it found no token. -/
theorem startSubBlockOfRead : Obligations.StartSubBlockOfRead := by
  intro s hx
  obtain ⟨found, e₁, b, h₁, ht, heq⟩ := s.waitToken_spec
  have hstart := s.startSubBlock_read hx
  rw [heq] at hstart
  cases found with
  | true =>
    exact ⟨true, e₁, [], b, h₁, rfl, by rw [ht, List.append_nil], exec_startSubBlock_of_eq hstart⟩
  | false =>
    obtain ⟨e₂, b₂, h₂, ht₂, heq₂⟩ := State.releaseSeq_spec { s with bus := b }
    rw [if_neg Bool.false_ne_true, State.abort, heq₂] at hstart
    exact ⟨false, e₁, e₂, b₂, h₁, h₂, by rw [ht₂, ← ht], exec_startSubBlock_of_eq hstart⟩

/-- Settles O44: the trailer of each direction. -/
theorem stopSubBlockTrailer : Obligations.StopSubBlockTrailer := by
  intro crc s
  refine ⟨fun hx => ?_, fun hx => ?_⟩
  · obtain ⟨hi, lo, b, ht, heq⟩ := s.readTrailer_spec
    have hstop := s.stopSubBlock_open crc .read hx
    rw [State.trailer, heq, joinTrailer_append] at hstop
    exact ⟨hi, lo, b, ht, exec_stopSubBlock_of_eq hstop⟩
  · obtain ⟨g₁, g₂, resp, b, ht, heq⟩ := s.writeTrailer_spec crc
    have hstop := s.stopSubBlock_open crc .write hx
    rw [State.trailer, heq] at hstop
    exact ⟨g₁, g₂, resp, b, ht, exec_stopSubBlock_of_eq hstop⟩

/-! `END_TRANSFER` (44 R205 to R207). -/

namespace State

/-- A multi-block transfer is closed. -/
theorem endTransfer_multi_spec {s : State} {dir : Dir} (crc : Half)
    (hx : s.xfer = some { dir, gran := .multi, subOpen := false }) :
    ∃ (e : List BusEvent) (b : Bus) (r : Byte), CloseEvents s.cfg dir r e ∧
      b.trace = s.bus.trace ++ e ∧
      s.endTransfer crc = (.ok, { s with bus := b, xfer := none, cs := false, lastR1 := r }) := by
  obtain ⟨r, e, b, h, ht, heq⟩ := s.closeTransfer_spec dir
  exact ⟨e, b, r, h, ht, by rw [s.endTransfer_multi crc dir hx, heq]⟩

/-- A single-block read: the trailer is received, whatever `crcOut` is (44 R206). -/
theorem endTransfer_read_spec {s : State} {o : Bool} (crc : Half)
    (hx : s.xfer = some { dir := .read, gran := .single, subOpen := o }) :
    ∃ (hi lo : Byte) (e : List BusEvent) (b : Bus) (r : Byte), CloseEvents s.cfg .read r e ∧
      b.trace = s.bus.trace ++ ReadTrailerEvents hi lo ++ e ∧
      s.endTransfer crc = (.ok, { s with
        bus := b, xfer := none, cs := false, lastR1 := r, lastCrc16 := hi ++ lo }) := by
  obtain ⟨hi, lo, b₁, ht₁, heq₁⟩ := s.readTrailer_spec
  obtain ⟨r, e, b, h, ht, heq⟩ := s.readTrailer.closeTransfer_spec .read
  rw [heq₁, joinTrailer_append] at h ht heq
  refine ⟨hi, lo, e, b, r, h, by rw [ht, ← ht₁], ?_⟩
  rw [s.endTransfer_single crc .read o hx, trailer, heq₁, joinTrailer_append, heq]

/-- A single-block write: the trailer is sent and the data-response token kept (44 R207). -/
theorem endTransfer_write_spec {s : State} {o : Bool} (crc : Half)
    (hx : s.xfer = some { dir := .write, gran := .single, subOpen := o }) :
    ∃ (g₁ g₂ resp : Byte) (e : List BusEvent) (b : Bus) (r : Byte), CloseEvents s.cfg .write r e ∧
      b.trace = s.bus.trace ++ WriteTrailerEvents crc g₁ g₂ resp ++ e ∧
      s.endTransfer crc = (.ok, { s with
        bus := b, xfer := none, cs := false, lastR1 := r, lastCrc16 := crc,
        lastDataResp := resp }) := by
  obtain ⟨g₁, g₂, resp, b₁, ht₁, heq₁⟩ := s.writeTrailer_spec crc
  obtain ⟨r, e, b, h, ht, heq⟩ := (s.writeTrailer crc).closeTransfer_spec .write
  rw [heq₁] at h ht heq
  refine ⟨g₁, g₂, resp, e, b, r, h, by rw [ht, ← ht₁], ?_⟩
  rw [s.endTransfer_single crc .write o hx, trailer, heq₁, heq]

end State

theorem exec_endTransfer_of_eq {s t : State} {crc : Half} {st : Status}
    (h : s.endTransfer crc = (st, t)) :
    exec (.endTransfer crc) s = .next (t.respond st .none) := by
  simp only [exec, execEndTransfer, h]

/-- Settles O45: the refusal, and each kind of transfer by its trailer and its close. -/
theorem endTransferOfEachKind : Obligations.EndTransferOfEachKind := by
  refine ⟨fun crc s hx => ?_, fun crc s x hx hsub => ?_⟩
  · refine exec_endTransfer_of_eq (s.endTransfer_refused crc (hx.imp_right ?_))
    rintro ⟨⟨dir, gran, sub⟩, hx, rfl, rfl⟩
    exact ⟨dir, hx⟩
  · obtain ⟨dir, gran, sub⟩ := x
    cases gran with
    | multi =>
      obtain rfl : sub = false := hsub rfl
      obtain ⟨e, b, r, h, ht, heq⟩ := State.endTransfer_multi_spec crc hx
      exact ⟨[], e, b, r, s.lastCrc16, s.lastDataResp, ⟨rfl, rfl, rfl⟩, h,
        by rw [ht, List.append_nil], exec_endTransfer_of_eq heq⟩
    | single =>
      cases dir with
      | read =>
        obtain ⟨hi, lo, e, b, r, h, ht, heq⟩ := State.endTransfer_read_spec crc hx
        exact ⟨_, e, b, r, hi ++ lo, s.lastDataResp, ⟨hi, lo, rfl, rfl, rfl⟩, h, ht,
          exec_endTransfer_of_eq heq⟩
      | write =>
        obtain ⟨g₁, g₂, resp, e, b, r, h, ht, heq⟩ := State.endTransfer_write_spec crc hx
        exact ⟨_, e, b, r, crc, resp, ⟨g₁, g₂, rfl, rfl⟩, h, ht, exec_endTransfer_of_eq heq⟩

/-! `XFER_BYTE` (44 R202). -/

theorem exec_xferByte_of_transfer {s : State} (out : Byte) (hx : s.xfer ≠ none) :
    exec (.xferByte out) s =
      .next ((s.onBus (Bus.send out)).respond .ok (.byte (s.bus.xchg out).1)) :=
  congrArg Host.Outcome.next (s.xferByte_some out hx)

theorem exec_xferByte_refused {s : State} (out : Byte) (hx : s.xfer = none) :
    exec (.xferByte out) s = .next (s.respond .seqError (.byte 0)) :=
  congrArg Host.Outcome.next (s.xferByte_none out hx)

/-- Settles O46: `XFER_BYTE` with and without a transfer. -/
theorem xferByteIsOneExchange : Obligations.XferByteIsOneExchange := fun out s =>
  ⟨exec_xferByte_refused out,
    fun hx => ⟨_, s.bus.send out, Bus.send_trace out s.bus, exec_xferByte_of_transfer out hx⟩⟩

end Sys2Proof.Machine
end

section
/-! PROOFS. The block operations (44 R208, R209), the sequences of low-level operations they stand
for (R214), and the payload on the bus (R218). -/

namespace Sys2Proof.Machine

/-! How a single-block `BEGIN_TRANSFER` ends (44 R196). -/

namespace BeginEnds

variable {cfg : Cfg} {r : Byte} {st : Status} {ev : List BusEvent}

theorem read_ok (h : BeginEnds cfg .read .single r .ok ev) :
    r = 0x00 ∧ TokenEvents cfg.tokenDelayMs cfg.tokenAttempts true ev := by
  simpa [BeginEnds] using h

theorem read_failed (h : BeginEnds cfg .read .single r st ev) (hst : st ≠ .ok) :
    (r = 0xFF ∧ st = .cmdNoResponse ∧ ReleaseEvents cfg.postIdleClocks ev) ∨
    (r ≠ 0xFF ∧ r ≠ 0x00 ∧ st = .cmdRejected ∧ ReleaseEvents cfg.postIdleClocks ev) ∨
    (r = 0x00 ∧ st = .tokenTimeout ∧ ∃ e₁ e₂,
      TokenEvents cfg.tokenDelayMs cfg.tokenAttempts false e₁ ∧
      ReleaseEvents cfg.postIdleClocks e₂ ∧ ev = e₁ ++ e₂) := by
  simpa [BeginEnds, hst] using h

theorem write_ok (h : BeginEnds cfg .write .single r .ok ev) :
    r = 0x00 ∧ ∃ g, ev = [.xchg 0xFE g] := by
  simpa [BeginEnds] using h

theorem write_failed (h : BeginEnds cfg .write .single r st ev) (hst : st ≠ .ok) :
    ReleaseEvents cfg.postIdleClocks ev ∧
      ((r = 0xFF ∧ st = .cmdNoResponse) ∨ (r ≠ 0xFF ∧ r ≠ 0x00 ∧ st = .cmdRejected)) := by
  obtain ⟨hr, hst', hev⟩ | ⟨hr, hr', hst', hev⟩ | ⟨-, -, h, -⟩ | ⟨-, -, -, h, -⟩ | ⟨-, -, -, h, -⟩ |
    ⟨-, -, h, -⟩ := h
  · exact ⟨hev, .inl ⟨hr, hst'⟩⟩
  · exact ⟨hev, .inr ⟨hr, hr', hst'⟩⟩
  · exact absurd h hst
  · exact absurd h hst
  · exact absurd h hst
  · cases h

end BeginEnds

namespace State

/-! A block operation after its `BEGIN_TRANSFER` (44 R208, R209). -/

section

variable {s t : State} {addr : Arg} {buf : List Byte} {st : Status}

theorem readBlock_of_failed (h : s.beginTransfer .read .single addr = (st, t)) (hst : st ≠ .ok) :
    s.readBlock addr = t.respond st (.block zeroBlock) := by
  simp only [readBlock, h, if_pos hst]

theorem readBlock_of_begun (h : s.beginTransfer .read .single addr = (.ok, t)) :
    s.readBlock addr = ((t.setBus (t.bus.idle blockLen)).endTransfer 0).2.respond .ok
      (.block (t.bus.recv blockLen).1) := by
  simp [readBlock, h]

theorem writeBlock_of_failed (h : s.beginTransfer .write .single addr = (st, t)) (hst : st ≠ .ok) :
    s.writeBlock addr buf = t.respond st .none := by
  simp only [writeBlock, h, if_pos hst]

theorem writeBlock_of_begun (h : s.beginTransfer .write .single addr = (.ok, t)) :
    s.writeBlock addr buf =
      ((t.onBus (Bus.sendAll buf)).endTransfer (crc16 0 buf)).2.respond .ok .none := by
  simp [writeBlock, h]

end

end State

/-- Settles O47: refused or failed as its `BEGIN_TRANSFER` is; else the data after the token, then
the end of a single-block read. -/
theorem readBlockOutcomes : Obligations.ReadBlockOutcomes := by
  refine ⟨fun addr s => ⟨fun ha => ?_, fun ha hx => ?_⟩, fun addr s ha hx => ?_⟩
  · exact congrArg Host.Outcome.next
      (State.readBlock_of_failed (State.beginTransfer_of_inactive _ _ addr ha) (by decide))
  · exact congrArg Host.Outcome.next
      (State.readBlock_of_failed (State.beginTransfer_of_transfer _ _ addr ha hx) (by decide))
  obtain ⟨r, e₁, e₂, e₃, b, st, h₁, h₂, ht, heq, hends⟩ :=
    State.beginTransfer_spec .read .single addr ha hx
  by_cases hst : st = .ok
  · subst hst
    obtain ⟨hr, h₃⟩ := hends.read_ok
    obtain ⟨hi, lo, e₅, b', r', h₅, ht', hend⟩ := State.endTransfer_read_spec
      (s := (s.afterBegin .read .single r .ok b).setBus (b.idle blockLen)) 0 rfl
    refine ⟨r, e₁, e₂, e₃ ++ (b.recv blockLen).1.map (BusEvent.xchg idleByte) ++
      ReadTrailerEvents hi lo ++ e₅, b', .ok, (b.recv blockLen).1, r', hi ++ lo, h₁, h₂, ?_,
      Bus.recv_length blockLen b, ?_, .inl ⟨rfl, hr, e₃, e₅, hi, lo, h₃, h₅, rfl, rfl⟩⟩
    · rw [ht', State.setBus_bus, Bus.recv_trace, ht]
      simp only [List.append_assoc]
    · refine congrArg Host.Outcome.next ((State.readBlock_of_begun heq).trans ?_)
      rw [hx]
      exact congrArg (fun p => State.respond .ok _ p.2) hend
  · have hfail := State.afterBegin_of_failed hx .read .single r hst b
    rw [hfail] at heq
    exact ⟨r, e₁, e₂, e₃, b, st, State.zeroBlock, r, s.lastCrc16, h₁, h₂, ht, List.length_replicate,
      congrArg Host.Outcome.next (State.readBlock_of_failed heq hst),
      .inr ⟨hst, rfl, rfl, rfl, hends.read_failed hst⟩⟩

/-- Settles O48: refused or failed as its `BEGIN_TRANSFER` is; else the bytes of the buffer after
the start token, then the end of a single-block write. -/
theorem writeBlockOutcomes : Obligations.WriteBlockOutcomes := by
  refine ⟨fun addr buf s => ⟨fun ha => ?_, fun ha hx => ?_⟩, fun addr buf s hbuf ha hx => ?_⟩
  · exact congrArg Host.Outcome.next
      (State.writeBlock_of_failed (State.beginTransfer_of_inactive _ _ addr ha) (by decide))
  · exact congrArg Host.Outcome.next
      (State.writeBlock_of_failed (State.beginTransfer_of_transfer _ _ addr ha hx) (by decide))
  obtain ⟨r, e₁, e₂, e₃, b, st, h₁, h₂, ht, heq, hends⟩ :=
    State.beginTransfer_spec .write .single addr ha hx
  by_cases hst : st = .ok
  · subst hst
    obtain ⟨hr, g, rfl⟩ := hends.write_ok
    obtain ⟨got, hgot, htdata⟩ := Bus.sendAll_spec buf b
    obtain ⟨g₁, g₂, resp, e₄, b', r', h₄, ht', hend⟩ := State.endTransfer_write_spec
      (s := (s.afterBegin .write .single r .ok b).setBus (b.sendAll buf)) (crc16 0 buf) rfl
    refine ⟨r, e₁, e₂, [.xchg 0xFE g] ++ List.zipWith BusEvent.xchg buf got ++
      WriteTrailerEvents (crc16 0 buf) g₁ g₂ resp ++ e₄, b', .ok, r', crc16 0 buf, resp, h₁, h₂, ?_,
      ?_, .inl ⟨rfl, hr, rfl, e₄, g, g₁, g₂, got, hgot.trans hbuf, h₄, rfl⟩⟩
    · rw [ht', State.setBus_bus, htdata, ht]
      simp only [List.append_assoc]
    · refine congrArg Host.Outcome.next ((State.writeBlock_of_begun heq).trans ?_)
      rw [hx]
      exact congrArg (fun p => State.respond .ok _ p.2) hend
  · have hfail := State.afterBegin_of_failed hx .write .single r hst b
    rw [hfail] at heq
    obtain ⟨hrelease, hcode⟩ := hends.write_failed hst
    exact ⟨r, e₁, e₂, e₃, b, st, r, s.lastCrc16, s.lastDataResp, h₁, h₂, ht,
      congrArg Host.Outcome.next (State.writeBlock_of_failed heq hst),
      .inr ⟨rfl, rfl, rfl, hrelease, hcode⟩⟩

/-! Sequences of operations (44 R214, R218). -/

theorem runAll_cons_of_next {i : Instr} {is : List Instr} {s t : State} (h : exec i s = .next t) :
    runAll (i :: is) s = runAll is t := by
  simp only [runAll, h]

theorem runAll_append_of_next {is js : List Instr} {s t : State} (h : runAll is s = .next t) :
    runAll (is ++ js) s = runAll js t := by
  induction is generalizing s with
  | nil =>
    cases h
    rfl
  | cons i is ih =>
    cases hi : exec i s with
    | next u =>
      rw [List.cons_append, runAll_cons_of_next hi]
      exact ih (by rwa [runAll_cons_of_next hi] at h)
    | fault r | refused r => simp [runAll, hi] at h

/-- Payload bytes during a transfer go on the bus in order; the last response stays (44 R202). -/
theorem runAll_xferByte {s : State} (payload : List Byte) (hx : s.xfer ≠ none) :
    ∃ resp, runAll (payload.map .xferByte) s =
      .next { s with bus := s.bus.sendAll payload, response := resp } := by
  induction payload generalizing s with
  | nil => exact ⟨s.response, rfl⟩
  | cons o payload ih =>
    obtain ⟨resp, h⟩ := ih
      (s := (s.onBus (Bus.send o)).respond .ok (.byte (s.bus.xchg o).1)) hx
    exact ⟨resp, (runAll_cons_of_next (exec_xferByte_of_transfer o hx)).trans h⟩

/-- Payload bytes without a transfer are refused one by one. -/
theorem runAll_xferByte_refused {s : State} (payload : List Byte) (hx : s.xfer = none) :
    ∃ resp, runAll (payload.map .xferByte) s = .next { s with response := resp } := by
  induction payload generalizing s with
  | nil => exact ⟨s.response, rfl⟩
  | cons o payload ih =>
    obtain ⟨resp, h⟩ := ih (s := s.respond .seqError (.byte 0)) hx
    exact ⟨resp, (runAll_cons_of_next (exec_xferByte_refused o hx)).trans h⟩

/-- Settles O52: the bytes of the payload are sent in order, and each is one exchange. -/
theorem payloadBytesPassInOrder : Obligations.PayloadBytesPassInOrder := by
  intro payload s hx
  obtain ⟨resp, h⟩ := runAll_xferByte payload hx
  obtain ⟨got, hgot, ht⟩ := Bus.sendAll_spec payload s.bus
  exact ⟨_, got, h, hgot, ht, rfl⟩

/-- `READ_BLOCK` and `WRITE_BLOCK` as sequences of low-level operations (44 R214). -/
def blockSequence (dir : Dir) (addr : Arg) (payload : List Byte) (crc : Half) : List Instr :=
  [.beginTransfer dir .single addr] ++ payload.map .xferByte ++ [.endTransfer crc]

namespace State

/-- The end of a single-block transfer does not depend on the last response. -/
theorem endTransfer_of_response {s : State} {dir : Dir} {o : Bool} (crc : Half)
    (resp : Option Response) (hx : s.xfer = some { dir, gran := .single, subOpen := o }) :
    endTransfer crc { s with response := resp } =
      (.ok, { (s.endTransfer crc).2 with response := resp }) := by
  rw [endTransfer_single s crc dir o hx,
    endTransfer_single { s with response := resp } crc dir o hx]
  cases dir <;> rfl

/-- The end of a single-block read ignores its trailer operand (44 R206). -/
theorem endTransfer_read_crc_irrelevant {s : State} {o : Bool} (crc crc' : Half)
    (hx : s.xfer = some { dir := .read, gran := .single, subOpen := o }) :
    s.endTransfer crc = s.endTransfer crc' := by
  rw [s.endTransfer_single crc .read o hx, s.endTransfer_single crc' .read o hx]
  rfl

/-- A `BEGIN_TRANSFER` that opens no transfer leaves none in flight. -/
theorem beginTransfer_xfer_of_failed {s t : State} {dir : Dir} {gran : Gran} {addr : Arg}
    {st : Status} (h : s.beginTransfer dir gran addr = (st, t)) (hst : st ≠ .ok)
    (hx : s.xfer = none) : t.xfer = none := by
  obtain ⟨-, h'⟩ | ⟨b, r, -, -, ⟨-, h'⟩ | h'⟩ := s.beginTransfer_outcome dir gran addr
  · rw [h] at h'
    exact (congrArg State.xfer h').trans hx
  · rw [h] at h'
    exact (congrArg State.xfer h').trans hx
  · rw [h] at h'
    exact absurd (congrArg Prod.fst h') hst

/-- A begun transfer is in flight, with no sub-block open. -/
theorem beginTransfer_xfer_of_begun {s t : State} {dir : Dir} {gran : Gran} {addr : Arg}
    (h : s.beginTransfer dir gran addr = (.ok, t)) :
    t.xfer = some { dir, gran, subOpen := false } := by
  obtain ⟨h', -⟩ | ⟨b, r, -, -, ⟨h', -⟩ | h'⟩ := s.beginTransfer_outcome dir gran addr
  · exact absurd (congrArg Prod.fst h) h'
  · exact absurd (congrArg Prod.fst h) h'
  · rw [h] at h'
    cases h'
    rfl

end State

section

variable {s t : State} {dir : Dir} {addr : Arg} {st : Status} (payload : List Byte) (crc : Half)

/-- The sequence after a begun transfer: the payload, then the end. -/
theorem runAll_blockSequence_of_begun (h : s.beginTransfer dir .single addr = (.ok, t)) :
    runAll (blockSequence dir addr payload crc) s =
      .next (((t.onBus (Bus.sendAll payload)).endTransfer crc).2.respond .ok .none) := by
  have hx := State.beginTransfer_xfer_of_begun h
  obtain ⟨resp, hpayload⟩ := runAll_xferByte (s := t.respond .ok .none) payload (by simp [hx])
  have hend := State.endTransfer_of_response (s := t.onBus (Bus.sendAll payload)) crc resp hx
  rw [blockSequence, List.append_assoc, List.singleton_append,
    runAll_cons_of_next (exec_beginTransfer_of_eq h), runAll_append_of_next hpayload]
  exact (runAll_cons_of_next (is := []) (exec_endTransfer_of_eq hend)).trans rfl

/-- The sequence after a `BEGIN_TRANSFER` that opens no transfer is refused to its end. -/
theorem runAll_blockSequence_of_failed (h : s.beginTransfer dir .single addr = (st, t))
    (hst : st ≠ .ok) (hx : s.xfer = none) :
    ∃ resp, runAll (blockSequence dir addr payload crc) s = .next { t with response := resp } := by
  have hx' := State.beginTransfer_xfer_of_failed h hst hx
  obtain ⟨resp, hpayload⟩ := runAll_xferByte_refused (s := t.respond st .none) payload hx'
  rw [blockSequence, List.append_assoc, List.singleton_append,
    runAll_cons_of_next (exec_beginTransfer_of_eq h), runAll_append_of_next hpayload]
  exact ⟨_, (runAll_cons_of_next (is := []) (exec_endTransfer_of_eq
    (State.endTransfer_refused { t with response := resp } crc (.inl hx')))).trans rfl⟩

end

theorem Bus.sendAll_replicate_idleByte (n : Nat) (b : Bus) :
    b.sendAll (List.replicate n idleByte) = b.idle n := by
  induction n generalizing b with
  | zero => rfl
  | succ n ih => rw [List.replicate_succ, sendAll_cons, ih, idle_succ]

/-- A block read by the sequence, whatever trailer operand it ends with, is what `READ_BLOCK` does
but for the response (44 R206, R208). -/
theorem readBlock_eq_of_begun {s t : State} {addr : Arg} (crc : Half)
    (h : s.beginTransfer .read .single addr = (.ok, t)) :
    s.readBlock addr =
      ((t.onBus (Bus.sendAll (List.replicate blockLen idleByte))).endTransfer crc).2.respond .ok
        (.block (t.bus.recv blockLen).1) := by
  have hx := State.beginTransfer_xfer_of_begun h
  have hend := State.endTransfer_read_crc_irrelevant 0 crc
    ((State.setBus_xfer t (t.bus.idle blockLen)).trans hx)
  rw [State.readBlock_of_begun h, hend, State.onBus, Bus.sendAll_replicate_idleByte]

/-- Settles O51: the sequence has begun its transfer or is refused from there on, as the block
operation is. -/
theorem blockOperationsAreTheirSequences : Obligations.BlockOperationsAreTheirSequences := by
  refine ⟨fun addr crc s t h => ?_, fun addr buf s t h => ?_⟩
  · cases h
    obtain ⟨st, u, heq⟩ : ∃ st u, s.beginTransfer .read .single addr = (st, u) := ⟨_, _, rfl⟩
    rw [← List.map_replicate (f := Instr.xferByte)]
    by_cases hst : st = .ok
    · subst hst
      rw [readBlock_eq_of_begun crc heq]
      exact ⟨fun _ => ⟨_, runAll_blockSequence_of_begun _ crc heq, rfl, fun _ => rfl⟩,
        fun hne => absurd rfl hne⟩
    · rw [State.readBlock_of_failed heq hst]
      refine ⟨fun hx => ?_, fun _ => ⟨_, exec_beginTransfer_of_eq heq, rfl, rfl⟩⟩
      obtain ⟨resp, hrun⟩ :=
        runAll_blockSequence_of_failed (List.replicate 512 idleByte) crc heq hst hx
      exact ⟨_, hrun, rfl, fun hok => absurd (Option.some.inj hok) hst⟩
  · cases h
    obtain ⟨st, u, heq⟩ : ∃ st u, s.beginTransfer .write .single addr = (st, u) := ⟨_, _, rfl⟩
    by_cases hst : st = .ok
    · subst hst
      rw [State.writeBlock_of_begun heq]
      exact ⟨fun _ => ⟨_, runAll_blockSequence_of_begun buf _ heq, rfl, fun _ => rfl⟩,
        fun hne => absurd rfl hne⟩
    · rw [State.writeBlock_of_failed heq hst]
      refine ⟨fun hx => ?_, fun _ => exec_beginTransfer_of_eq heq⟩
      obtain ⟨resp, hrun⟩ := runAll_blockSequence_of_failed buf (crc16 0 buf) heq hst hx
      exact ⟨_, hrun, rfl, fun hok => absurd (Option.some.inj hok) hst⟩

end Sys2Proof.Machine
end

section
/-! PROOFS. The Transfer Engine with a scripted card (20_memory R59) that answers every command at
once. -/

namespace Sys2Proof.Machine

namespace Bus

section

variable {b : Bus} {rest : List Byte}

theorem xchg_prompt {i : Byte} (o : Byte) (h : b.card = .script (i :: rest)) :
    (b.xchg o).1 = i ∧ (b.send o).card = .script rest := by
  simp [send, xchg, Card.answer, h]

theorem recv_prompt {is : List Byte} (h : b.card = .script (is ++ rest)) :
    (b.recv is.length).1 = is ∧ (b.idle is.length).card = .script rest := by
  have hrecv := recv_script is rest b.trace
  have hidle := idle_script is rest b.trace
  rw [← h] at hrecv hidle
  exact ⟨congrArg Prod.fst hrecv, congrArg Bus.card hidle⟩

theorem sendAll_prompt {os is : List Byte} (hl : os.length = is.length)
    (h : b.card = .script (is ++ rest)) : (b.sendAll os).card = .script rest := by
  have hsend := sendAll_script os is rest b.trace hl
  rw [← h] at hsend
  exact congrArg Bus.card hsend

/-- `WaitBusy` when the first byte is not busy (44 R194). -/
theorem waitBusy_prompt {ms n : Nat} {i : Byte} (hn : 0 < n) (hi : i ≠ 0x00#8)
    (h : b.card = .script (i :: rest)) : (b.waitBusy ms n).card = .script rest := by
  obtain ⟨n, rfl⟩ := Nat.exists_eq_add_one.2 hn
  obtain ⟨hx, hcard⟩ := xchg_prompt idleByte h
  simpa [waitBusy, hx, hi] using hcard

end

end Bus

namespace State

section

variable {s : State} {rest : List Byte}

/-- `BEGIN_TRANSFER` goes on with its data once the card has acknowledged the command (44 R196). -/
theorem beginTransfer_of_acknowledged {t : State} {dir : Dir} {gran : Gran} {addr : Arg}
    (ha : s.active = true) (hx : s.xfer = none)
    (h : s.selectSeq.sendCommand (beginIndex s.cfg dir gran) addr = (r1Ready, t)) :
    s.beginTransfer dir gran addr = t.beginData dir gran := by
  rw [beginTransfer, if_neg (by simp [ha]), if_neg (not_not.2 hx), h]
  rfl

/-- `BEGIN_TRANSFER` answered 0x00 at the first poll goes on with its data (44 R196). -/
theorem beginTransfer_prompt (dir : Dir) (gran : Gran) (addr : Arg) (ha : s.active = true)
    (hx : s.xfer = none)
    (h : s.bus.card = .script
      (List.replicate (s.cfg.preSelectIdleClocks + 1) 0xFF ++ (promptReply 0x00 ++ rest))) :
    ∃ b : Bus, b.card = .script rest ∧ s.beginTransfer dir gran addr =
      beginData dir gran { s with bus := b, lastR1 := 0x00, cs := true } := by
  have hsel : s.selectSeq.bus.card = .script (promptReply 0x00 ++ rest) := by
    rw [selectSeq_bus, Bus.log_card, ← Bus.idle_succ_last]
    exact Bus.idle_prompt h
  obtain ⟨b, hcard, hcmd⟩ := Bus.command_prompt (beginIndex s.cfg dir gran) addr (by decide) hsel
  exact ⟨b, hcard, beginTransfer_of_acknowledged ha hx (sendCommand_of_bus hcmd)⟩

/-- The data of a begun multi-block transfer are left to the sub-blocks (44 R196). -/
theorem beginData_multi (dir : Dir) (s : State) :
    s.beginData dir .multi = (.ok, s.setXfer (some { dir, gran := .multi, subOpen := false })) :=
  rfl

/-- The start token of a single-block write (44 R196). -/
theorem beginData_write (s : State) :
    s.beginData .write .single = (.ok, (s.onBus (Bus.send tokenStart)).setXfer
      (some { dir := .write, gran := .single, subOpen := false })) := rfl

/-- A single-block read whose start token comes at once (44 R196). -/
theorem beginData_read_prompt (hn : 0 < s.cfg.tokenAttempts)
    (h : s.bus.card = .script (tokenStart :: rest)) :
    ∃ b : Bus, b.card = .script rest ∧ s.beginData .read .single = (.ok, { s with
      bus := b, xfer := some { dir := .read, gran := .single, subOpen := false } }) := by
  obtain ⟨b, hcard, hw⟩ := Bus.waitToken_prompt (ms := s.cfg.tokenDelayMs) hn h
  exact ⟨b, hcard, by simp only [beginData, waitToken_of_bus hw, if_true]; rfl⟩

/-- The trailer of a read (44 R206). -/
theorem readTrailer_prompt {hi lo : Byte} (h : s.bus.card = .script (hi :: lo :: rest)) :
    ∃ b : Bus, b.card = .script rest ∧
      s.readTrailer = { s with bus := b, lastCrc16 := hi ++ lo } := by
  obtain ⟨h₁, hcard₁⟩ := Bus.xchg_prompt idleByte h
  obtain ⟨h₂, hcard₂⟩ := Bus.xchg_prompt idleByte hcard₁
  refine ⟨_, hcard₂, ?_⟩
  rw [← joinTrailer_append, ← h₁, ← h₂]
  rfl

/-- The trailer of a write and the data-response token (44 R207). -/
theorem writeTrailer_prompt {g₁ g₂ resp : Byte} (crc : Half)
    (h : s.bus.card = .script (g₁ :: g₂ :: resp :: rest)) :
    ∃ b : Bus, b.card = .script rest ∧
      s.writeTrailer crc = { s with bus := b, lastCrc16 := crc, lastDataResp := resp } := by
  obtain ⟨-, hcard₁⟩ := Bus.xchg_prompt (hiByte crc) h
  obtain ⟨-, hcard₂⟩ := Bus.xchg_prompt (loByte crc) hcard₁
  obtain ⟨h₃, hcard₃⟩ := Bus.xchg_prompt idleByte hcard₂
  refine ⟨_, hcard₃, ?_⟩
  rw [← h₃]
  rfl

/-- The stop command answered at the first poll, then the release (44 R205). -/
theorem stopCommand_prompt (idx : CmdIndex) {r : Byte} (hr : r ≠ idleByte)
    (h : s.bus.card = .script (promptReply r ++ rest)) :
    ∃ b : Bus, ((s.command idx 0).releaseSeq).setXfer none =
      { s with bus := b, lastR1 := r, cs := false, xfer := none } := by
  obtain ⟨b, -, hcmd⟩ := Bus.command_prompt idx 0 hr h
  exact ⟨_, by rw [command_of_bus hcmd]; rfl⟩

/-- `END_TRANSFER` of a single-block read (44 R206). -/
theorem endTransfer_read_prompt {hi lo r : Byte} {o : Bool} (crc : Half)
    (hx : s.xfer = some { dir := .read, gran := .single, subOpen := o }) (hr : r ≠ idleByte)
    (h : s.bus.card = .script (hi :: lo :: (promptReply r ++ rest))) :
    ∃ b : Bus, s.endTransfer crc = (.ok, { s with
      bus := b, lastR1 := r, lastCrc16 := hi ++ lo, cs := false, xfer := none }) := by
  obtain ⟨b₁, hcard₁, htrailer⟩ := readTrailer_prompt h
  obtain ⟨b, hstop⟩ := stopCommand_prompt
    (s := { s with bus := b₁, lastCrc16 := hi ++ lo }) s.cfg.idxEndRead hr hcard₁
  refine ⟨b, ?_⟩
  rw [s.endTransfer_single crc .read o hx, trailer, htrailer]
  exact congrArg (Prod.mk Status.ok) hstop

/-- `END_TRANSFER` of a single-block write (44 R207). -/
theorem endTransfer_write_prompt {g₁ g₂ resp i r : Byte} {o : Bool} (crc : Half)
    (hx : s.xfer = some { dir := .write, gran := .single, subOpen := o })
    (hn : 0 < s.cfg.busyAttempts) (hi : i ≠ 0x00#8) (hr : r ≠ idleByte)
    (h : s.bus.card = .script (g₁ :: g₂ :: resp :: i :: (promptReply r ++ rest))) :
    ∃ b : Bus, s.endTransfer crc = (.ok, { s with
      bus := b, lastR1 := r, lastCrc16 := crc, lastDataResp := resp, cs := false,
      xfer := none }) := by
  obtain ⟨b₁, hcard₁, htrailer⟩ := writeTrailer_prompt crc h
  have hbusy := Bus.waitBusy_prompt (ms := s.cfg.busyDelayMs) hn hi hcard₁
  obtain ⟨b, hstop⟩ := stopCommand_prompt
    (s := waitBusy { s with bus := b₁, lastCrc16 := crc, lastDataResp := resp })
    s.cfg.idxEndWrite hr hbusy
  refine ⟨b, ?_⟩
  rw [s.endTransfer_single crc .write o hx, trailer, htrailer]
  exact congrArg (Prod.mk Status.ok) hstop

end

end State

/-- Settles O49: the command is answered 0x00, and each mode goes on from there. -/
theorem promptCardBeginsATransfer : Obligations.PromptCardBeginsATransfer := by
  intro dir gran addr rest s ha hx hn hcard
  obtain ⟨b, hcard, hbegin⟩ := State.beginTransfer_prompt (rest := 0xFE :: rest) dir gran addr ha hx
    (by rw [hcard]; simp only [List.append_assoc, List.cons_append, List.nil_append])
  cases gran with
  | multi => exact ⟨b, exec_beginTransfer_of_eq (hbegin.trans (State.beginData_multi dir _))⟩
  | single =>
    cases dir with
    | write =>
      exact ⟨b.send tokenStart, exec_beginTransfer_of_eq (hbegin.trans (State.beginData_write _))⟩
    | read =>
      obtain ⟨b', -, hdata⟩ := State.beginData_read_prompt
        (s := { s with bus := b, lastR1 := 0x00, cs := true }) hn hcard
      exact ⟨b', exec_beginTransfer_of_eq (hbegin.trans hdata)⟩

/-- Settles O50: the transfer is begun, the data pass, and the transfer is ended, each at once. -/
theorem promptCardServesBlocks : Obligations.PromptCardServesBlocks := by
  intro addr buf hi lo resp s hbuf ha hx hn hbusy
  refine ⟨fun hcard => ?_, fun hcard => ?_⟩
  · obtain ⟨b₁, hcard₁, hbegin⟩ := State.beginTransfer_prompt
      (rest := 0xFE :: (buf ++ hi :: lo :: (promptReply 0x00 ++ []))) .read .single addr ha hx
      (by
        rw [hcard]
        simp only [List.append_assoc, List.cons_append, List.nil_append, List.append_nil])
    obtain ⟨b₂, hcard₂, hdata⟩ := State.beginData_read_prompt
      (s := { s with bus := b₁, lastR1 := 0x00, cs := true }) hn hcard₁
    obtain ⟨hrecv, hcard₃⟩ := Bus.recv_prompt hcard₂
    rw [hbuf] at hrecv hcard₃
    obtain ⟨b, hend⟩ := State.endTransfer_read_prompt (o := false)
      (s := { s with
        bus := b₂.idle blockLen, lastR1 := 0x00, cs := true,
        xfer := some { dir := .read, gran := .single, subOpen := false } })
      0 rfl (by decide) hcard₃
    refine ⟨b, congrArg Host.Outcome.next
      ((State.readBlock_of_begun (hbegin.trans hdata)).trans ?_)⟩
    rw [hrecv, hx]
    exact congrArg (fun p => State.respond .ok _ p.2) hend
  · obtain ⟨b₁, hcard₁, hbegin⟩ := State.beginTransfer_prompt
      (rest := 0xFF :: (List.replicate 512 0xFF ++
        (0xFF :: 0xFF :: resp :: 0xFF :: (promptReply 0x00 ++ [])))) .write .single addr ha hx
      (by
        rw [hcard]
        simp only [List.append_assoc, List.cons_append, List.nil_append, List.append_nil])
    obtain ⟨-, hcard₂⟩ := Bus.xchg_prompt tokenStart hcard₁
    have hcard₃ := Bus.sendAll_prompt (hbuf.trans List.length_replicate.symm) hcard₂
    obtain ⟨b, hend⟩ := State.endTransfer_write_prompt (o := false)
      (s := { s with
        bus := (b₁.send tokenStart).sendAll buf, lastR1 := 0x00, cs := true,
        xfer := some { dir := .write, gran := .single, subOpen := false } })
      (crc16 0 buf) rfl hbusy (by decide) (by decide) hcard₃
    refine ⟨b, congrArg Host.Outcome.next
      ((State.writeBlock_of_begun (hbegin.trans (State.beginData_write _))).trans ?_)⟩
    rw [hx]
    exact congrArg (fun p => State.respond .ok _ p.2) hend

end Sys2Proof.Machine
end

section
/-! PROOFS. The bounds on the exchanges of the transfer operations (44 R216). -/

namespace Sys2Proof.Machine

theorem CloseEvents.exchanges_le {cfg : Cfg} {dir : Dir} {r : Byte} {ev : List BusEvent}
    (h : CloseEvents cfg dir r ev) :
    exchanges ev ≤ cfg.busyAttempts + 23 + cfg.postIdleClocks := by
  obtain ⟨e₁, e₂, e₃, rfl, h, h₃⟩ := h
  obtain ⟨hrelease, -⟩ := h₃.counts
  simp only [exchanges_append]
  cases dir with
  | read =>
    obtain ⟨rfl, h₂⟩ := h
    have hstop := h₂.exchanges_le
    simp only [exchanges_nil]
    omega
  | write =>
    obtain ⟨h₁, h₂⟩ := h
    obtain ⟨hbusy, -⟩ := h₁.counts
    have hstop := h₂.exchanges_le
    omega

theorem BeginEnds.exchanges_le {cfg : Cfg} {dir : Dir} {gran : Gran} {r : Byte} {st : Status}
    {ev : List BusEvent} (h : BeginEnds cfg dir gran r st ev) :
    exchanges ev ≤ max 1 cfg.tokenAttempts + cfg.postIdleClocks := by
  obtain ⟨-, -, h⟩ | ⟨-, -, -, h⟩ | ⟨-, -, -, rfl⟩ | ⟨-, -, -, -, g, rfl⟩ | ⟨-, -, -, -, h⟩ |
    ⟨-, -, -, -, e₁, e₂, h, h', rfl⟩ := h
  · obtain ⟨hrelease, -⟩ := h.counts
    omega
  · obtain ⟨hrelease, -⟩ := h.counts
    omega
  · simp
  · simp
    omega
  · obtain ⟨htoken, -⟩ := h.counts
    omega
  · obtain ⟨htoken, -⟩ := h.counts
    obtain ⟨hrelease, -⟩ := h'.counts
    rw [exchanges_append]
    omega

section

variable {s t : State}

theorem exchanges_beginTransfer_le {dir : Dir} {gran : Gran} {addr : Arg}
    (h : exec (.beginTransfer dir gran addr) s = .next t) :
    exchanges t.bus.trace ≤ exchanges s.bus.trace +
      (s.cfg.preSelectIdleClocks + 1 + 23 + max 1 s.cfg.tokenAttempts + s.cfg.postIdleClocks) := by
  obtain ⟨hrefused, hadmitted⟩ := beginTransferOutcomes
  obtain ⟨hinactive, htransfer⟩ := hrefused dir gran addr s
  by_cases ha : s.active = true
  · by_cases hx : s.xfer = none
    · obtain ⟨r, e₁, e₂, e₃, b, st, h₁, h₂, ht, heq, hends⟩ := hadmitted dir gran addr s ha hx
      rw [heq] at h
      cases h
      obtain ⟨hselect, -⟩ := h₁.counts
      have hcommand := h₂.exchanges_le
      have hend := BeginEnds.exchanges_le hends
      simp only [State.respond_bus, ht, exchanges_append]
      omega
    · rw [htransfer ha hx] at h
      cases h
      exact Nat.le_add_right _ _
  · rw [hinactive (by simpa using ha)] at h
    cases h
    exact Nat.le_add_right _ _

theorem exchanges_startSubBlock_le (h : exec .startSubBlock s = .next t) :
    exchanges t.bus.trace ≤ exchanges s.bus.trace +
      max (s.cfg.busyAttempts + 1) (s.cfg.tokenAttempts + s.cfg.postIdleClocks) := by
  by_cases hx : ∃ dir, s.xfer = some { dir, gran := .multi, subOpen := false }
  · obtain ⟨_ | _, hx⟩ := hx
    · obtain ⟨found, e₁, e₂, b, h₁, h₂, ht, heq⟩ := startSubBlockOfRead s hx
      rw [heq] at h
      cases h
      obtain ⟨htoken, -⟩ := h₁.counts
      have hrelease : exchanges e₂ ≤ s.cfg.postIdleClocks := by
        cases found with
        | true => simp [show e₂ = [] from h₂]
        | false => exact (ReleaseEvents.counts h₂).1.le
      simp only [State.respond_bus, ht, exchanges_append]
      omega
    · obtain ⟨e, g, b, he, ht, heq⟩ := startSubBlockOfWrite s hx
      rw [heq] at h
      cases h
      obtain ⟨hbusy, -⟩ := he.counts
      simp only [State.respond_bus, ht, exchanges_append, exchanges_xchg, exchanges_nil]
      omega
  · rw [exec_startSubBlock_of_eq (s.startSubBlock_refused (not_exists.1 hx))] at h
    cases h
    exact Nat.le_add_right _ _

theorem exchanges_stopSubBlock_le {crc : Half} (h : exec (.stopSubBlock crc) s = .next t) :
    exchanges t.bus.trace ≤ exchanges s.bus.trace + 3 := by
  by_cases hx : ∃ dir, s.xfer = some { dir, gran := .multi, subOpen := true }
  · obtain ⟨hread, hwrite⟩ := stopSubBlockTrailer crc s
    obtain ⟨_ | _, hx⟩ := hx
    · obtain ⟨hi, lo, b, ht, heq⟩ := hread hx
      rw [heq] at h
      cases h
      simp [ht, ReadTrailerEvents]
    · obtain ⟨g₁, g₂, resp, b, ht, heq⟩ := hwrite hx
      rw [heq] at h
      cases h
      simp [ht, WriteTrailerEvents]
  · rw [exec_stopSubBlock_of_eq (s.stopSubBlock_refused crc (not_exists.1 hx))] at h
    cases h
    exact Nat.le_add_right _ _

theorem exchanges_xferByte {out : Byte} (hx : s.xfer ≠ none)
    (h : exec (.xferByte out) s = .next t) :
    exchanges t.bus.trace = exchanges s.bus.trace + 1 := by
  rw [exec_xferByte_of_transfer out hx] at h
  cases h
  simp

theorem exchanges_endTransfer_le {crc : Half} (h : exec (.endTransfer crc) s = .next t) :
    exchanges t.bus.trace ≤ exchanges s.bus.trace +
      (3 + s.cfg.busyAttempts + 23 + s.cfg.postIdleClocks) := by
  obtain ⟨hrefused, hends⟩ := endTransferOfEachKind
  by_cases hx : ∃ x, s.xfer = some x ∧ (x.gran = .multi → x.subOpen = false)
  · obtain ⟨⟨dir, gran, sub⟩, hx, hsub⟩ := hx
    obtain ⟨e₁, e₂, b, r, crc', resp, h₁, h₂, ht, heq⟩ := hends crc s _ hx hsub
    rw [heq] at h
    cases h
    have htrailer : exchanges e₁ ≤ 3 := by
      cases gran with
      | multi =>
        obtain ⟨rfl, -⟩ := h₁
        simp
      | single =>
        cases dir with
        | read =>
          obtain ⟨hi, lo, rfl, -⟩ := h₁
          simp [ReadTrailerEvents]
        | write =>
          obtain ⟨g₁, g₂, rfl, -⟩ := h₁
          simp [WriteTrailerEvents]
    have hclose := h₂.exchanges_le
    simp only [State.respond_bus, ht, exchanges_append]
    omega
  · rw [hrefused crc s ?_] at h
    · cases h
      exact Nat.le_add_right _ _
    · cases hx' : s.xfer with
      | none => exact .inl rfl
      | some x => exact .inr ⟨x, rfl, by simpa [hx'] using hx⟩

end

/-- Settles O53: the exchanges of the appended events are what the trace has gained. -/
theorem transferOperationsAreBounded : Obligations.TransferOperationsAreBounded := by
  intro i s t h
  obtain ⟨ev, ht, -⟩ := exec_continues h
  have hcount : exchanges t.bus.trace = exchanges s.bus.trace + exchanges ev := by
    rw [ht, exchanges_append]
  refine ⟨ev, ht, ?_, ?_, ?_, ?_, ?_⟩
  · rintro d g a rfl
    have hle := exchanges_beginTransfer_le h
    omega
  · rintro rfl
    have hle := exchanges_startSubBlock_le h
    omega
  · rintro c rfl
    have hle := exchanges_stopSubBlock_le h
    omega
  · rintro o rfl hx
    have heq := exchanges_xferByte hx h
    omega
  · rintro c rfl
    have hle := exchanges_endTransfer_le h
    omega

end Sys2Proof.Machine
end

section
/-! PROOFS. Admission (44 R190), and what a failed transfer leaves (44 R217). -/

namespace Sys2Proof.Machine

/-- The status is none of the three refusal codes (60_exceptions R233). -/
def Status.NotRefusal (st : Status) : Prop := st ≠ .badOp ∧ st ≠ .notActive ∧ st ≠ .seqError

/-- The status is one of the three with which an admitted transfer operation fails (44 R195, R196,
R200). -/
def Status.TransferFailed (st : Status) : Prop :=
  st = .cmdNoResponse ∨ st = .cmdRejected ∨ st = .tokenTimeout

theorem Status.TransferFailed.ne_ok {st : Status} (h : st.TransferFailed) : st ≠ .ok := by
  rintro rfl
  simp [TransferFailed] at h

theorem Status.TransferFailed.notRefusal {st : Status} (h : st.TransferFailed) : st.NotRefusal := by
  obtain rfl | rfl | rfl := h <;> simp [NotRefusal]

theorem BeginEnds.ok_or_transferFailed {cfg : Cfg} {dir : Dir} {gran : Gran} {r : Byte}
    {st : Status} {ev : List BusEvent} (h : BeginEnds cfg dir gran r st ev) :
    st = .ok ∨ st.TransferFailed := by
  obtain ⟨-, h, -⟩ | ⟨-, -, h, -⟩ | ⟨-, -, h, -⟩ | ⟨-, -, -, h, -⟩ | ⟨-, -, -, h, -⟩ |
    ⟨-, -, -, h, -⟩ := h
  · exact .inr (.inl h)
  · exact .inr (.inr (.inl h))
  · exact .inl h
  · exact .inl h
  · exact .inl h
  · exact .inr (.inr (.inr h))

/-- A bring-up ends with `OK` or with the failure of a stage (43 R176). -/
theorem InitEvents.notRefusal {cfg : Cfg} {st : Status} {cid csd : Reg16} {before last : Byte}
    {ev : List BusEvent} (h : InitEvents cfg st cid csd before last ev) : st.NotRefusal := by
  obtain ⟨_, _, _, _, _, _, _, _, _, -, -, -, -,
    ⟨rfl, -⟩ | ⟨rfl, -⟩ | ⟨rfl, -⟩ | ⟨rfl | rfl | rfl, -⟩⟩ := h <;> simp [Status.NotRefusal]

theorem capacityResult_notRefusal (d : Reg16) : (capacityResult d).1.NotRefusal := by
  cases h : (decodeCsd d).capacity with
  | none => simp [capacityResult_of_none h, Status.NotRefusal]
  | some n => simp [capacityResult_of_some h, Status.NotRefusal]

namespace State

section

variable {s : State}

/-- `READ_BLOCK` answers the status of its `BEGIN_TRANSFER`; one that fails ends in its state (44
R208, R214). -/
theorem readBlock_answers_begin (addr : Arg) (s : State) :
    ∃ u v, s.readBlock addr = u.respond (s.beginTransfer .read .single addr).1 v ∧
      ((s.beginTransfer .read .single addr).1 ≠ .ok →
        u = (s.beginTransfer .read .single addr).2) := by
  obtain ⟨st, t, h⟩ : ∃ st t, s.beginTransfer .read .single addr = (st, t) := ⟨_, _, rfl⟩
  rw [h]
  by_cases hst : st = .ok
  · subst hst
    exact ⟨_, _, readBlock_of_begun h, fun hne => absurd rfl hne⟩
  · exact ⟨_, _, readBlock_of_failed h hst, fun _ => rfl⟩

/-- `WRITE_BLOCK` answers the status of its `BEGIN_TRANSFER`; one that fails ends in its state (44
R209, R214). -/
theorem writeBlock_answers_begin (addr : Arg) (buf : List Byte) (s : State) :
    ∃ u v, s.writeBlock addr buf = u.respond (s.beginTransfer .write .single addr).1 v ∧
      ((s.beginTransfer .write .single addr).1 ≠ .ok →
        u = (s.beginTransfer .write .single addr).2) := by
  obtain ⟨st, t, h⟩ : ∃ st t, s.beginTransfer .write .single addr = (st, t) := ⟨_, _, rfl⟩
  rw [h]
  by_cases hst : st = .ok
  · subst hst
    exact ⟨_, _, writeBlock_of_begun h, fun hne => absurd rfl hne⟩
  · exact ⟨_, _, writeBlock_of_failed h hst, fun _ => rfl⟩

theorem beginTransfer_notRefusal (dir : Dir) (gran : Gran) (addr : Arg) (ha : s.active = true)
    (hx : s.xfer = none) : (s.beginTransfer dir gran addr).1.NotRefusal := by
  obtain ⟨r, e₁, e₂, e₃, b, st, -, -, -, heq, hends⟩ := beginTransfer_spec dir gran addr ha hx
  rw [heq]
  obtain rfl | hfail := BeginEnds.ok_or_transferFailed hends
  · simp [Status.NotRefusal]
  · exact hfail.notRefusal

/-- A `BEGIN_TRANSFER` that fails has written the bus, `S.lastR1` and the line only (44 R196). -/
theorem beginTransfer_of_transferFailed {dir : Dir} {gran : Gran} {addr : Arg}
    (h : (s.beginTransfer dir gran addr).1.TransferFailed) :
    s.active = true ∧ s.xfer = none ∧ ∃ (b : Bus) (r : Byte),
      (s.beginTransfer dir gran addr).2 = { s with bus := b, lastR1 := r, cs := false } := by
  by_cases ha : s.active = true
  · by_cases hx : s.xfer = none
    · obtain ⟨r, e₁, e₂, e₃, b, st, -, -, -, heq, -⟩ := beginTransfer_spec dir gran addr ha hx
      rw [heq] at h ⊢
      exact ⟨ha, hx, b, r, afterBegin_of_failed hx dir gran r h.ne_ok b⟩
    · rw [beginTransfer_of_transfer dir gran addr ha hx] at h
      simp [Status.TransferFailed] at h
  · rw [beginTransfer_of_inactive dir gran addr (by simpa using ha)] at h
    simp [Status.TransferFailed] at h

end

end State

/-! Where the table of admission lets an operation through (44 R190). -/

section

variable {s : State}

theorem refusalOf_block_eq_none {i : Instr} (hi : (∃ d g a, i = .beginTransfer d g a) ∨
    (∃ a, i = .readBlock a) ∨ ∃ a b, i = .writeBlock a b) :
    refusalOf i s = none ↔ s.active = true ∧ s.xfer = none := by
  have h : (if s.active = false then some Status.notActive
      else if s.xfer = none then none else some .seqError) = none ↔
      s.active = true ∧ s.xfer = none := by
    cases s.active <;> simp
  obtain ⟨_, _, _, rfl⟩ | ⟨_, rfl⟩ | ⟨_, _, rfl⟩ := hi
  · exact h
  · exact h
  · exact h

theorem refusalOf_startSubBlock_eq_none (h : refusalOf .startSubBlock s = none) :
    ∃ dir, s.xfer = some { dir, gran := .multi, subOpen := false } := by
  simp only [refusalOf] at h
  split at h
  · exact ⟨_, ‹_›⟩
  · cases h

theorem refusalOf_stopSubBlock_eq_none {crc : Half} (h : refusalOf (.stopSubBlock crc) s = none) :
    ∃ dir, s.xfer = some { dir, gran := .multi, subOpen := true } := by
  simp only [refusalOf] at h
  split at h
  · exact ⟨_, ‹_›⟩
  · cases h

theorem refusalOf_endTransfer_eq_none {crc : Half} (h : refusalOf (.endTransfer crc) s = none) :
    ∃ x, s.xfer = some x ∧ (x.gran = .multi → x.subOpen = false) := by
  simp only [refusalOf] at h
  split at h
  · exact ⟨_, ‹_›, by simp⟩
  · exact ⟨_, ‹_›, fun _ => rfl⟩
  · cases h

end

/-- An operation that responds with no refusal code is not refused. -/
theorem not_refused_of_respond {i : Instr} {s u : State} {st : Status} {v : Value}
    (h : exec i s = .next (u.respond st v)) (hst : st.NotRefusal) :
    ∃ t r, exec i s = .next t ∧ t.response = some r ∧
      r.status ≠ .badOp ∧ r.status ≠ .notActive ∧ r.status ≠ .seqError :=
  ⟨_, _, h, rfl, hst⟩

/-- Settles O23: what each operation answers where it is admitted. -/
theorem admittedOperationsAreNotRefused : Obligations.AdmittedOperationsAreNotRefused := by
  intro i s hh hr
  have hok : Status.ok.NotRefusal := by simp [Status.NotRefusal]
  cases i <;> cases hh
  case isActive | crc7 | crc16 => exact not_refused_of_respond rfl hok
  case reservedE | reservedF => cases hr
  case initializeCard =>
    obtain ⟨-, hruns⟩ := initializeRunsTheStagesInOrder
    obtain ⟨st, _, _, _, _, _, _, _, -, hev, -, -, h⟩ := hruns s (by simpa [refusalOf] using hr)
    exact not_refused_of_respond h hev.notRefusal
  case capacityBytes =>
    exact not_refused_of_respond (exec_capacityBytes_of_active (by simpa [refusalOf] using hr))
      (capacityResult_notRefusal s.csd)
  case getCid =>
    exact not_refused_of_respond (exec_getCid_of_active (by simpa [refusalOf] using hr)) hok
  case getCsd =>
    exact not_refused_of_respond (exec_getCsd_of_active (by simpa [refusalOf] using hr)) hok
  case beginTransfer dir gran addr =>
    obtain ⟨ha, hx⟩ := (refusalOf_block_eq_none (.inl ⟨_, _, _, rfl⟩)).1 hr
    exact not_refused_of_respond rfl (State.beginTransfer_notRefusal dir gran addr ha hx)
  case readBlock addr =>
    obtain ⟨ha, hx⟩ := (refusalOf_block_eq_none (.inr (.inl ⟨_, rfl⟩))).1 hr
    obtain ⟨u, v, h, -⟩ := s.readBlock_answers_begin addr
    exact not_refused_of_respond (congrArg Host.Outcome.next h)
      (State.beginTransfer_notRefusal _ _ addr ha hx)
  case writeBlock addr buf =>
    obtain ⟨ha, hx⟩ := (refusalOf_block_eq_none (.inr (.inr ⟨_, _, rfl⟩))).1 hr
    obtain ⟨u, v, h, -⟩ := s.writeBlock_answers_begin addr buf
    exact not_refused_of_respond (congrArg Host.Outcome.next h)
      (State.beginTransfer_notRefusal _ _ addr ha hx)
  case startSubBlock =>
    obtain ⟨_ | _, hx⟩ := refusalOf_startSubBlock_eq_none hr
    · obtain ⟨found, _, _, _, -, -, -, h⟩ := startSubBlockOfRead s hx
      refine not_refused_of_respond h ?_
      cases found
      · simp [Status.NotRefusal]
      · exact hok
    · obtain ⟨_, _, _, -, -, h⟩ := startSubBlockOfWrite s hx
      exact not_refused_of_respond h hok
  case stopSubBlock crc =>
    obtain ⟨dir, hx⟩ := refusalOf_stopSubBlock_eq_none hr
    exact not_refused_of_respond (exec_stopSubBlock_of_eq (s.stopSubBlock_open crc dir hx)) hok
  case endTransfer crc =>
    obtain ⟨x, hx, hsub⟩ := refusalOf_endTransfer_eq_none hr
    obtain ⟨-, hends⟩ := endTransferOfEachKind
    obtain ⟨_, _, _, _, _, _, -, -, -, h⟩ := hends crc s x hx hsub
    exact not_refused_of_respond h hok
  case xferByte out =>
    exact not_refused_of_respond
      (exec_xferByte_of_transfer out fun hx => by simp [refusalOf, hx] at hr) hok

/-- From `s` to `t` a transfer has failed in an active session: of `S` at most `S.lastR1` has a new
value but for the release and the end of the transfer (44 R217). -/
def TransferFailure (s t : State) : Prop :=
  s.active = true ∧ ∃ (b : Bus) (r : Byte) (resp : Option Response),
    t = { s with bus := b, lastR1 := r, cs := false, xfer := none, response := resp }

section

variable {s t : State} {r : Response}

/-- What follows a `BEGIN_TRANSFER` that fails. -/
theorem transferFailure_of_begin {dir : Dir} {gran : Gran} {addr : Arg}
    (h : (s.beginTransfer dir gran addr).1.TransferFailed) (st : Status) (v : Value) :
    TransferFailure s ((s.beginTransfer dir gran addr).2.respond st v) := by
  obtain ⟨ha, hx, b, r, heq⟩ := State.beginTransfer_of_transferFailed h
  rw [heq]
  exact ⟨ha, b, r, _, by rw [← hx]; rfl⟩

theorem transferFailure_of_startSubBlock (hs : s.Inv) (h : exec .startSubBlock s = .next t)
    (ht : t.response = some r) (hst : r.status.TransferFailed) : TransferFailure s t := by
  by_cases hx : ∃ dir, s.xfer = some { dir, gran := .multi, subOpen := false }
  · obtain ⟨_ | _, hx⟩ := hx
    · obtain ⟨found, _, _, b, -, -, -, heq⟩ := startSubBlockOfRead s hx
      rw [heq] at h
      cases h
      cases ht
      cases found with
      | true => exact absurd rfl hst.ne_ok
      | false =>
        obtain ⟨-, hactive, -⟩ := hs
        exact ⟨hactive (by simp [hx]), b, s.lastR1, _, rfl⟩
    · obtain ⟨_, _, _, -, -, heq⟩ := startSubBlockOfWrite s hx
      rw [heq] at h
      cases h
      cases ht
      exact absurd rfl hst.ne_ok
  · rw [exec_startSubBlock_of_eq (s.startSubBlock_refused (not_exists.1 hx))] at h
    cases h
    cases ht
    simp [Status.TransferFailed] at hst

/-- An operation that answers as its `BEGIN_TRANSFER`, and ends in the state of one that fails. -/
theorem transferFailure_of_answers_begin {dir : Dir} {gran : Gran} {addr : Arg} {u : State}
    {v : Value} (ht : (u.respond (s.beginTransfer dir gran addr).1 v).response = some r)
    (hst : r.status.TransferFailed)
    (hu : (s.beginTransfer dir gran addr).1 ≠ .ok → u = (s.beginTransfer dir gran addr).2) :
    TransferFailure s (u.respond (s.beginTransfer dir gran addr).1 v) := by
  cases ht
  rw [hu hst.ne_ok]
  exact transferFailure_of_begin hst _ v

end

/-- Settles O54: a failure of any of the four operations leaves the session, and no transfer. -/
theorem failedTransferKeepsTheSession : Obligations.FailedTransferKeepsTheSession := by
  intro i s t r hs h ht hi hst
  have hfail : TransferFailure s t := by
    obtain rfl | ⟨d, g, a, rfl⟩ | ⟨a, rfl⟩ | ⟨a, buf, rfl⟩ := hi
    · exact transferFailure_of_startSubBlock hs h ht hst
    · cases h
      exact transferFailure_of_answers_begin ht hst fun _ => rfl
    · obtain ⟨u, v, heq, hu⟩ := s.readBlock_answers_begin a
      cases (congrArg Host.Outcome.next heq).symm.trans h
      exact transferFailure_of_answers_begin ht hst hu
    · obtain ⟨u, v, heq, hu⟩ := s.writeBlock_answers_begin a buf
      cases (congrArg Host.Outcome.next heq).symm.trans h
      exact transferFailure_of_answers_begin ht hst hu
  obtain ⟨ha, b, r1, resp, rfl⟩ := hfail
  exact ⟨ha, rfl, rfl, rfl, rfl, rfl, rfl, rfl, fun d g a =>
    (refusalOf_block_eq_none (.inl ⟨d, g, a, rfl⟩)).2 ⟨ha, rfl⟩⟩

end Sys2Proof.Machine
end

section
/-! PROOFS. That every instruction returns, and which two kinds the model refuses instead (60_exceptions
R236, 30_encoding R81, R88, 20_memory R62; log 22, log 23). -/

namespace Sys2Proof.Machine

/-- An instruction that asks for no asserted chip-select answers a next state. -/
theorem exec_returns_of_not_needsSelect {i : Instr} (h : needsSelect i = false) (s : State) :
    ∃ t, exec i s = .next t := by
  cases i <;> cases h <;> exact ⟨_, rfl⟩

/-- An instruction that asks for an asserted chip-select, but for a frame the engine never emits, is a
piece of work done while the card is selected. -/
theorem exec_eq_whileSelected {i : Instr} {s : State} (h : needsSelect i = true)
    (he : ∀ idx arg, i = .frame idx arg → isEmitted s.cfg idx arg = true) :
    ∃ f, exec i s = s.whileSelected f := by
  cases i <;> cases h
  case frame idx arg => exact ⟨_, exec_frameOf rfl (he idx arg rfl)⟩
  all_goals exact ⟨_, rfl⟩

/-- Every way an instruction can go: refused as a frame the engine never emits, refused while the card
is released, or to a next state. -/
theorem exec_cases (i : Instr) (s : State) :
    (∃ idx arg, i = .frame idx arg ∧ isEmitted s.cfg idx arg = false ∧
      exec i s = .refused (.frameNotEmitted idx arg)) ∨
    (needsSelect i = true ∧ s.cs = false ∧ exec i s = .refused .cardReleased) ∨
    ∃ t, exec i s = .next t := by
  by_cases hne : ∃ idx arg, i = .frame idx arg ∧ isEmitted s.cfg idx arg = false
  · obtain ⟨idx, arg, rfl, he⟩ := hne
    exact .inl ⟨idx, arg, rfl, he, exec_frame_not_emitted he⟩
  cases hn : needsSelect i with
  | false => exact .inr (.inr (exec_returns_of_not_needsSelect hn s))
  | true =>
    obtain ⟨f, hf⟩ := exec_eq_whileSelected (s := s) hn fun idx arg hi =>
      eq_true_of_ne_false fun he => hne ⟨idx, arg, hi, he⟩
    cases hcs : s.cs with
    | false => exact .inr (.inl ⟨rfl, rfl, hf.trans (whileSelected_false hcs)⟩)
    | true => exact .inr (.inr ⟨f s, hf.trans (whileSelected_true hcs)⟩)

/-- Settles O18: the premises shut out the two refusals, and there are no others. -/
theorem everyInstructionReturns : Obligations.EveryInstructionReturns := by
  refine ⟨fun i s he hcs => ?_, fun i s r h => ?_⟩
  · obtain ⟨idx, arg, hi, hne, -⟩ | ⟨hn, hrel, -⟩ | ht := exec_cases i s
    · exact absurd (hne.symm.trans (he idx arg hi)) Bool.false_ne_true
    · exact absurd (hrel.symm.trans (hcs hn)) Bool.false_ne_true
    · exact ht
  · obtain ⟨idx, arg, hi, hne, heq⟩ | ⟨hn, hrel, heq⟩ | ⟨t, heq⟩ := exec_cases i s
    · cases heq.symm.trans h
      exact .inl ⟨idx, arg, hi, hne, rfl⟩
    · cases heq.symm.trans h
      exact .inr ⟨hn, hrel, rfl⟩
    · cases heq.symm.trans h

end Sys2Proof.Machine
end

section
/-! PROOFS. What a refused operation does (60_exceptions R233, R234, 44 R190; log 11). -/

namespace Sys2Proof.Machine

/-! What the table of refusals says of the state, operation by operation. -/

section

variable {s : State} {st : Status}

/-- The table's row of the three queries of the Register Decoder. -/
theorem refusalOf_query_eq_some {i : Instr} (hi : i = .capacityBytes ∨ i = .getCid ∨ i = .getCsd)
    (h : refusalOf i s = some st) : s.active = false ∧ st = .notActive := by
  have row : (if s.active then none else some Status.notActive) = some st →
      s.active = false ∧ st = .notActive := by
    cases s.active <;> simp +contextual
  obtain rfl | rfl | rfl := hi
  · exact row h
  · exact row h
  · exact row h

/-- A `BEGIN_TRANSFER` that the table refuses returns the table's code, which is not `OK`, and the
state. -/
theorem beginTransfer_of_refused {dir : Dir} {gran : Gran} {addr : Arg}
    (h : refusalOf (.beginTransfer dir gran addr) s = some st) :
    s.beginTransfer dir gran addr = (st, s) ∧ st ≠ .ok := by
  simp only [refusalOf] at h
  split at h
  · cases h
    exact ⟨State.beginTransfer_of_inactive dir gran addr ‹_›, by decide⟩
  · split at h
    · cases h
    · cases h
      exact ⟨State.beginTransfer_of_transfer dir gran addr (by simpa using ‹¬ s.active = false›) ‹_›,
        by decide⟩

theorem startSubBlock_of_refused (h : refusalOf .startSubBlock s = some st) :
    s.startSubBlock = (st, s) := by
  simp only [refusalOf] at h
  split at h
  · cases h
  · cases h
    exact s.startSubBlock_refused ‹_›

theorem stopSubBlock_of_refused {crc : Half} (h : refusalOf (.stopSubBlock crc) s = some st) :
    s.stopSubBlock crc = (st, s) := by
  simp only [refusalOf] at h
  split at h
  · cases h
  · cases h
    exact s.stopSubBlock_refused crc ‹_›

theorem endTransfer_of_refused {crc : Half} (h : refusalOf (.endTransfer crc) s = some st) :
    s.endTransfer crc = (st, s) := by
  match hx : s.xfer with
  | none =>
    simp only [refusalOf, hx, Option.some.injEq] at h
    exact h ▸ s.endTransfer_refused crc (.inl hx)
  | some { dir, gran := .multi, subOpen := true } =>
    simp only [refusalOf, hx, Option.some.injEq] at h
    exact h ▸ s.endTransfer_refused crc (.inr ⟨dir, hx⟩)
  | some { dir, gran := .multi, subOpen := false } => simp [refusalOf, hx] at h
  | some { dir, gran := .single, subOpen := o } => simp [refusalOf, hx] at h

end

/-- Settles O22: each operation in the states in which the table refuses it. -/
theorem refusedOperationsChangeNothing : Obligations.RefusedOperationsChangeNothing := by
  intro i s st hh h
  cases i <;> cases hh
  case isActive | crc7 | crc16 => cases h
  case reservedE | reservedF => cases h; rfl
  case capacityBytes =>
    obtain ⟨ha, rfl⟩ := refusalOf_query_eq_some (.inl rfl) h
    exact congrArg Host.Outcome.next (if_pos ha)
  case getCid =>
    obtain ⟨ha, rfl⟩ := refusalOf_query_eq_some (.inr (.inl rfl)) h
    exact congrArg Host.Outcome.next (if_pos ha)
  case getCsd =>
    obtain ⟨ha, rfl⟩ := refusalOf_query_eq_some (.inr (.inr rfl)) h
    exact congrArg Host.Outcome.next (if_pos ha)
  case initializeCard =>
    obtain ⟨hx, rfl⟩ : s.xfer ≠ none ∧ Status.seqError = st := by simpa [refusalOf] using h
    exact congrArg Host.Outcome.next (State.initializeCard_of_transfer hx)
  case xferByte out =>
    obtain ⟨hx, rfl⟩ : s.xfer = none ∧ Status.seqError = st := by simpa [refusalOf] using h
    exact exec_xferByte_refused out hx
  case beginTransfer dir gran addr => exact exec_beginTransfer_of_eq (beginTransfer_of_refused h).1
  case readBlock addr =>
    obtain ⟨hb, hst⟩ := beginTransfer_of_refused (dir := .read) (gran := .single) (addr := addr) h
    exact congrArg Host.Outcome.next (State.readBlock_of_failed hb hst)
  case writeBlock addr buf =>
    obtain ⟨hb, hst⟩ := beginTransfer_of_refused (dir := .write) (gran := .single) (addr := addr) h
    exact congrArg Host.Outcome.next (State.writeBlock_of_failed hb hst)
  case startSubBlock => exact exec_startSubBlock_of_eq (startSubBlock_of_refused h)
  case stopSubBlock crc => exact exec_stopSubBlock_of_eq (stopSubBlock_of_refused h)
  case endTransfer crc => exact exec_endTransfer_of_eq (endTransfer_of_refused h)

end Sys2Proof.Machine
end

section
/-! PROOFS. The status codes: their numbers (60_exceptions R230), and which of them each operation can
return (R232). -/

namespace Sys2Proof.Machine

/-- The twelve status codes, in the order of 60_exceptions R230. -/
def Status.all : List Status :=
  [.ok, .notActive, .seqError, .badOp, .initFailReset, .initFailNegotiation, .initFailBlocklen,
    .initFailRegister, .cmdNoResponse, .cmdRejected, .tokenTimeout, .decodeFail]

theorem Status.mem_all (st : Status) : st ∈ Status.all := by
  cases st <;> decide

theorem Status.nodup_codes : (Status.all.map Status.code).Nodup := by decide

/-- Settles O26: the numbers are those of `Status.code`, and the list of them has no duplicates. -/
theorem statusCodeNumbers : Obligations.StatusCodeNumbers :=
  ⟨rfl, rfl, rfl, rfl, rfl, rfl, rfl, rfl, rfl, rfl, rfl, rfl, fun a b h =>
    List.inj_on_of_nodup_map Status.nodup_codes a.mem_all b.mem_all h⟩

/-- The status is `OK` or a code of the operation's row (60_exceptions R232). -/
def Status.InRow (i : Instr) (st : Status) : Prop := st = .ok ∨ st ∈ codesOf i

/-- A bring-up ends with `OK` or with the failure of a stage (43 R176). -/
theorem InitEvents.status_inRow {cfg : Cfg} {st : Status} {cid csd : Reg16} {before last : Byte}
    {ev : List BusEvent} (h : InitEvents cfg st cid csd before last ev) :
    st.InRow .initializeCard := by
  obtain ⟨_, _, _, _, _, _, _, _, _, -, -, -, -,
    ⟨rfl, -⟩ | ⟨rfl, -⟩ | ⟨rfl, -⟩ | ⟨rfl | rfl | rfl, -⟩⟩ := h <;> simp [Status.InRow, codesOf]

theorem capacityResult_inRow (d : Reg16) : (capacityResult d).1.InRow .capacityBytes := by
  cases h : (decodeCsd d).capacity with
  | none => simp [capacityResult_of_none h, Status.InRow, codesOf]
  | some n => simp [capacityResult_of_some h, Status.InRow]

/-- The four codes in the row of `BEGIN_TRANSFER` whatever its mode. -/
theorem mem_codesOf_beginTransfer {st : Status}
    (h : st ∈ [.notActive, .seqError, .cmdNoResponse, .cmdRejected]) (dir : Dir) (gran : Gran)
    (addr : Arg) : st ∈ codesOf (.beginTransfer dir gran addr) := by
  cases gran with
  | multi => cases dir <;> exact h
  | single =>
    cases dir with
    | read => exact List.mem_append_left [.tokenTimeout] h
    | write => exact h

/-- How an admitted `BEGIN_TRANSFER` ends: a token timeout needs a single-block read (44 R196). -/
theorem BeginEnds.status_inRow {cfg : Cfg} {dir : Dir} {gran : Gran} {r : Byte} {st : Status}
    {ev : List BusEvent} (h : BeginEnds cfg dir gran r st ev) (addr : Arg) :
    st.InRow (.beginTransfer dir gran addr) := by
  obtain ⟨-, rfl, -⟩ | ⟨-, -, rfl, -⟩ | ⟨-, -, rfl, -⟩ | ⟨-, -, -, rfl, -⟩ | ⟨-, -, -, rfl, -⟩ |
    ⟨-, rfl, rfl, rfl, -⟩ := h
  · exact .inr (mem_codesOf_beginTransfer (by simp) dir gran addr)
  · exact .inr (mem_codesOf_beginTransfer (by simp) dir gran addr)
  · exact .inl rfl
  · exact .inl rfl
  · exact .inl rfl
  · exact .inr (by simp [codesOf])

namespace State

theorem beginTransfer_inRow (dir : Dir) (gran : Gran) (addr : Arg) (s : State) :
    (s.beginTransfer dir gran addr).1.InRow (.beginTransfer dir gran addr) := by
  by_cases ha : s.active = true
  · by_cases hx : s.xfer = none
    · obtain ⟨_, _, _, _, _, _, -, -, -, heq, hends⟩ := beginTransfer_spec dir gran addr ha hx
      exact heq ▸ hends.status_inRow addr
    · rw [beginTransfer_of_transfer dir gran addr ha hx]
      exact .inr (mem_codesOf_beginTransfer (by simp) dir gran addr)
  · rw [beginTransfer_of_inactive dir gran addr (by simpa using ha)]
    exact .inr (mem_codesOf_beginTransfer (by simp) dir gran addr)

/-- `START_SUB_BLOCK` times out in a read only (44 R199, R200). -/
theorem startSubBlock_status (s : State) :
    s.startSubBlock.1 = .ok ∨ s.startSubBlock.1 = .seqError ∨
      (s.startSubBlock.1 = .tokenTimeout ∧ ∃ x, s.xfer = some x ∧ x.dir = .read) := by
  by_cases hx : ∃ dir, s.xfer = some { dir, gran := .multi, subOpen := false }
  · obtain ⟨_ | _, hx⟩ := hx
    · rw [s.startSubBlock_read hx]
      split
      · exact .inl rfl
      · exact .inr (.inr ⟨rfl, _, hx, rfl⟩)
    · exact .inl (by rw [s.startSubBlock_write hx])
  · exact .inr (.inl (by rw [s.startSubBlock_refused (not_exists.1 hx)]))

theorem stopSubBlock_inRow (crc : Half) (s : State) :
    (s.stopSubBlock crc).1.InRow (.stopSubBlock crc) := by
  by_cases hx : ∃ dir, s.xfer = some { dir, gran := .multi, subOpen := true }
  · obtain ⟨dir, hx⟩ := hx
    exact .inl (by rw [s.stopSubBlock_open crc dir hx])
  · exact .inr (by simp [s.stopSubBlock_refused crc (not_exists.1 hx), codesOf])

theorem endTransfer_inRow (crc : Half) (s : State) :
    (s.endTransfer crc).1.InRow (.endTransfer crc) := by
  unfold endTransfer
  split
  · exact .inl rfl
  · exact .inl rfl
  · exact .inr (by simp [codesOf])

end State

/-- Run in `s`, the operation responds with `OK` or a code of its row. -/
def RespondsInRow (i : Instr) (s : State) : Prop :=
  ∃ (u : State) (st : Status) (v : Value), exec i s = .next (u.respond st v) ∧ st.InRow i

theorem respondsInRow_of_refused {i : Instr} {s : State} {st : Status} (hh : i.isHostOp = true)
    (h : refusalOf i s = some st) (hst : st ∈ codesOf i) : RespondsInRow i s :=
  ⟨_, _, _, refusedOperationsChangeNothing i s st hh h, .inr hst⟩

/-- Every host operation does, whether it is refused, fails or ends well. -/
theorem respondsInRow_of_isHostOp {i : Instr} (hh : i.isHostOp = true) (s : State) :
    RespondsInRow i s := by
  cases i <;> cases hh
  case isActive | crc7 | crc16 => exact ⟨_, _, _, rfl, .inl rfl⟩
  case reservedE | reservedF => exact respondsInRow_of_refused rfl rfl (by simp [codesOf])
  case initializeCard =>
    by_cases hx : s.xfer = none
    · obtain ⟨-, hruns⟩ := initializeRunsTheStagesInOrder
      obtain ⟨_, _, _, _, _, _, _, _, -, hev, -, -, h⟩ := hruns s hx
      exact ⟨_, _, _, h, hev.status_inRow⟩
    · exact respondsInRow_of_refused rfl (if_neg hx) (by simp [codesOf])
  case capacityBytes =>
    by_cases ha : s.active = true
    · exact ⟨_, _, _, exec_capacityBytes_of_active ha, capacityResult_inRow s.csd⟩
    · exact respondsInRow_of_refused rfl (if_neg ha) (by simp [codesOf])
  case getCid =>
    by_cases ha : s.active = true
    · exact ⟨_, _, _, exec_getCid_of_active ha, .inl rfl⟩
    · exact respondsInRow_of_refused rfl (if_neg ha) (by simp [codesOf])
  case getCsd =>
    by_cases ha : s.active = true
    · exact ⟨_, _, _, exec_getCsd_of_active ha, .inl rfl⟩
    · exact respondsInRow_of_refused rfl (if_neg ha) (by simp [codesOf])
  case xferByte out =>
    by_cases hx : s.xfer = none
    · exact respondsInRow_of_refused rfl (if_pos hx) (by simp [codesOf])
    · exact ⟨_, _, _, exec_xferByte_of_transfer out hx, .inl rfl⟩
  case beginTransfer dir gran addr =>
    exact ⟨_, _, _, rfl, s.beginTransfer_inRow dir gran addr⟩
  case readBlock addr =>
    obtain ⟨u, v, h, -⟩ := s.readBlock_answers_begin addr
    exact ⟨u, _, v, congrArg Host.Outcome.next h, s.beginTransfer_inRow .read .single addr⟩
  case writeBlock addr buf =>
    obtain ⟨u, v, h, -⟩ := s.writeBlock_answers_begin addr buf
    exact ⟨u, _, v, congrArg Host.Outcome.next h, s.beginTransfer_inRow .write .single addr⟩
  case startSubBlock =>
    refine ⟨_, _, _, rfl, s.startSubBlock_status.imp_right ?_⟩
    rintro (h | ⟨h, -⟩) <;> simp [h, codesOf]
  case stopSubBlock crc => exact ⟨_, _, _, rfl, s.stopSubBlock_inRow crc⟩
  case endTransfer crc => exact ⟨_, _, _, rfl, s.endTransfer_inRow crc⟩

/-- Settles O25: the status an operation responds with, and for `START_SUB_BLOCK` the transfer in which
its token wait can fail. -/
theorem statusCodesOfEachOperation : Obligations.StatusCodesOfEachOperation := by
  intro i s t r hh h ht
  refine ⟨?_, ?_⟩
  · obtain ⟨u, st, v, heq, hst⟩ := respondsInRow_of_isHostOp hh s
    cases heq.symm.trans h
    cases ht
    exact hst
  · rintro rfl hto
    cases h
    cases ht
    obtain hs | hs | ⟨-, hread⟩ := s.startSubBlock_status
    · cases hs.symm.trans hto
    · cases hs.symm.trans hto
    · exact hread

end Sys2Proof.Machine
end

section
/-! PROOFS. What each operation answers right after reset (70_reset_and_hazards R263). -/

namespace Sys2Proof.Machine

/-- Settles O20: `INITIALIZE` is admitted at reset (44 R190), `IS_ACTIVE` and the CRC operations answer
`OK` in every state, and the table of admission refuses all the others. -/
theorem answersAfterReset : Obligations.AnswersAfterReset := by
  unfold Obligations.AnswersAfterReset
  intro answer
  have of_respond (i : Instr) {u : State} {st : Status} {v : Value}
      (h : exec i State.reset = .next (u.respond st v)) : answer i = some st := by
    simp [answer, h]
  have of_refused (i : Instr) {st : Status} (hh : i.isHostOp = true)
      (h : refusalOf i State.reset = some st) : answer i = some st :=
    of_respond i (refusedOperationsChangeNothing i State.reset st hh h)
  have initialize_runs : ∃ st, answer .initializeCard = some st ∧ st ≠ .notActive ∧
      st ≠ .seqError := by
    obtain ⟨t, r, hexec, hresp, -, hactive, hseq⟩ :=
      admittedOperationsAreNotRefused .initializeCard State.reset rfl rfl
    exact ⟨r.status, by simp [answer, hexec, hresp], hactive, hseq⟩
  exact ⟨of_respond .isActive rfl, fun seed bytes => of_respond (.crc7 seed bytes) rfl,
    fun seed bytes => of_respond (.crc16 seed bytes) rfl, initialize_runs,
    of_refused .capacityBytes rfl rfl, of_refused .getCid rfl rfl, of_refused .getCsd rfl rfl,
    fun d g addr => of_refused (.beginTransfer d g addr) rfl rfl,
    fun addr => of_refused (.readBlock addr) rfl rfl,
    fun addr buf => of_refused (.writeBlock addr buf) rfl rfl,
    of_refused .startSubBlock rfl rfl, fun crc => of_refused (.stopSubBlock crc) rfl rfl,
    fun out => of_refused (.xferByte out) rfl rfl,
    fun crc => of_refused (.endTransfer crc) rfl rfl⟩

end Sys2Proof.Machine
end
